-- ==== Sys2Proof/Word.lean ====
section
/-! DEFINITION. The word types of rory CORE (spec/00_scope.md R5, R6): a byte, a 16-bit address, a 3-bit register code. -/

namespace Sys2Proof

/-- A byte, the addressable unit and the width of a general register (R5 `REG_WIDTH`, `BYTE`). -/
abbrev Byte := BitVec 8

/-- A 16-bit quantity: an address, `pc`, `sp`, `HL`, `n16` (R5 `ADDR_WIDTH`). Its `+` and `-` are the spec's `+16` and `-16` (R6). -/
abbrev Addr := BitVec 16

/-- A canonical 3-bit register code (spec/10_state.md R12). -/
abbrev Code := BitVec 3

end Sys2Proof
end

