-- ==== Sys2Proof/Syntax.lean ====
section
/-! DEFINITION. The instructions of rory CORE: one constructor of `Instr` for each of the 131 listed opcodes of spec/opcode_table.json
(spec/30_encoding.md R58), and `unimplemented` for the 125 rows named UNIMPLEMENTED (R60). `Form` is R58's own grouping of them. -/

namespace Sys2Proof

/-- The seven general registers (spec/10_state.md R11). -/
inductive Reg where
  | b | c | d | e | h | l | a
deriving DecidableEq, Repr

/-- What a canonical register code names (R12): one of the seven registers, or, for code 6, the byte of memory at address `HL`. -/
inductive Operand where
  | reg (r : Reg)
  | atHl
deriving DecidableEq, Repr

/-- The four destinations of `LD rr,n16` (spec/41_register_transfer.md R85). -/
inductive Pair where
  | bc | de | hl | sp
deriving DecidableEq, Repr

/-- The adjustment of `HL` in `(HL+)` and `(HL-)` (R86). -/
inductive HlStep where
  | inc | dec
deriving DecidableEq, Repr

/-- The four accumulator operations (spec/42_alu.md R100). -/
inductive AluOp where
  | add | and | xor | or
deriving DecidableEq, Repr

/-- The three conditions the source defines (spec/43_control_flow.md R118). No opcode reaches `zero`. -/
inductive Cond where
  | zero | notZero | noCarry
deriving DecidableEq, Repr

/-- The canonical code of a register (R12). -/
def Reg.code : Reg → Code
  | .b => 0 | .c => 1 | .d => 2 | .e => 3 | .h => 4 | .l => 5 | .a => 7

/-- The canonical code of an operand (R12): code 6 is `(HL)`. -/
def Operand.code : Operand → Code
  | .reg r => r.code
  | .atHl => 6

/-- The instructions. Each constructor's docstring gives its row of spec/opcode_table.json. `(HL)` in a name is `AtHl`. -/
inductive Instr where
  /-- 0x00 `NOP`, R72. -/
  | nop
  /-- 0x01 `LD BC,n16`, R85. -/
  | ldBcN16 (n16 : Addr)
  /-- 0x05 `DEC B`, R107. -/
  | decB
  /-- 0x06 `LD B,n8`, R84. -/
  | ldBN8 (n8 : Byte)
  /-- 0x0D `DEC C`, R107. -/
  | decC
  /-- 0x0E `LD C,n8`, R84. -/
  | ldCN8 (n8 : Byte)
  /-- 0x11 `LD DE,n16`, R85. -/
  | ldDeN16 (n16 : Addr)
  /-- 0x15 `DEC D`, R107. -/
  | decD
  /-- 0x16 `LD D,n8`, R84. -/
  | ldDN8 (n8 : Byte)
  /-- 0x1D `DEC E`, R107. -/
  | decE
  /-- 0x1E `LD E,n8`, R84. -/
  | ldEN8 (n8 : Byte)
  /-- 0x20 `JP NZ,r8`, R119. -/
  | jpNzR8 (r8 : Byte)
  /-- 0x21 `LD HL,n16`, R85. -/
  | ldHlN16 (n16 : Addr)
  /-- 0x22 `LD (HL+),A`, R87. -/
  | ldAtHlIncA
  /-- 0x25 `DEC H`, R107. -/
  | decH
  /-- 0x26 `LD H,n8`, R84. -/
  | ldHN8 (n8 : Byte)
  /-- 0x2A `LD A,(HL+)`, R89. -/
  | ldAAtHlInc
  /-- 0x2D `DEC L`, R107. -/
  | decL
  /-- 0x2E `LD L,n8`, R84. -/
  | ldLN8 (n8 : Byte)
  /-- 0x31 `LD SP,n16`, R85. -/
  | ldSpN16 (n16 : Addr)
  /-- 0x32 `LD (HL-),A`, R88. -/
  | ldAtHlDecA
  /-- 0x35 `DEC (HL)`, R108. -/
  | decAtHl
  /-- 0x36 `LD (HL),n8`, R84. -/
  | ldAtHlN8 (n8 : Byte)
  /-- 0x3A `LD A,(HL-)`, R90. -/
  | ldAAtHlDec
  /-- 0x3D `DEC A`, R107. -/
  | decA
  /-- 0x3E `LD A,n8`, R84. -/
  | ldAN8 (n8 : Byte)
  /-- 0x40 `LD B,B`, R81. -/
  | ldBB
  /-- 0x41 `LD B,C`, R81. -/
  | ldBC
  /-- 0x42 `LD B,D`, R81. -/
  | ldBD
  /-- 0x43 `LD B,E`, R81. -/
  | ldBE
  /-- 0x44 `LD B,H`, R81. -/
  | ldBH
  /-- 0x45 `LD B,L`, R81. -/
  | ldBL
  /-- 0x46 `LD B,(HL)`, R82. -/
  | ldBAtHl
  /-- 0x47 `LD B,A`, R81. -/
  | ldBA
  /-- 0x48 `LD C,B`, R81. -/
  | ldCB
  /-- 0x49 `LD C,C`, R81. -/
  | ldCC
  /-- 0x4A `LD C,D`, R81. -/
  | ldCD
  /-- 0x4B `LD C,E`, R81. -/
  | ldCE
  /-- 0x4C `LD C,H`, R81. -/
  | ldCH
  /-- 0x4D `LD C,L`, R81. -/
  | ldCL
  /-- 0x4E `LD C,(HL)`, R82. -/
  | ldCAtHl
  /-- 0x4F `LD C,A`, R81. -/
  | ldCA
  /-- 0x50 `LD D,B`, R81. -/
  | ldDB
  /-- 0x51 `LD D,C`, R81. -/
  | ldDC
  /-- 0x52 `LD D,D`, R81. -/
  | ldDD
  /-- 0x53 `LD D,E`, R81. -/
  | ldDE
  /-- 0x54 `LD D,H`, R81. -/
  | ldDH
  /-- 0x55 `LD D,L`, R81. -/
  | ldDL
  /-- 0x56 `LD D,(HL)`, R82. -/
  | ldDAtHl
  /-- 0x57 `LD D,A`, R81. -/
  | ldDA
  /-- 0x58 `LD E,B`, R81. -/
  | ldEB
  /-- 0x59 `LD E,C`, R81. -/
  | ldEC
  /-- 0x5A `LD E,D`, R81. -/
  | ldED
  /-- 0x5B `LD E,E`, R81. -/
  | ldEE
  /-- 0x5C `LD E,H`, R81. -/
  | ldEH
  /-- 0x5D `LD E,L`, R81. -/
  | ldEL
  /-- 0x5E `LD E,(HL)`, R82. -/
  | ldEAtHl
  /-- 0x5F `LD E,A`, R81. -/
  | ldEA
  /-- 0x60 `LD H,B`, R81. -/
  | ldHB
  /-- 0x61 `LD H,C`, R81. -/
  | ldHC
  /-- 0x62 `LD H,D`, R81. -/
  | ldHD
  /-- 0x63 `LD H,E`, R81. -/
  | ldHE
  /-- 0x64 `LD H,H`, R81. -/
  | ldHH
  /-- 0x65 `LD H,L`, R81. -/
  | ldHL
  /-- 0x66 `LD H,(HL)`, R82. -/
  | ldHAtHl
  /-- 0x67 `LD H,A`, R81. -/
  | ldHA
  /-- 0x68 `LD L,B`, R81. -/
  | ldLB
  /-- 0x69 `LD L,C`, R81. -/
  | ldLC
  /-- 0x6A `LD L,D`, R81. -/
  | ldLD
  /-- 0x6B `LD L,E`, R81. -/
  | ldLE
  /-- 0x6C `LD L,H`, R81. -/
  | ldLH
  /-- 0x6D `LD L,L`, R81. -/
  | ldLL
  /-- 0x6E `LD L,(HL)`, R82. -/
  | ldLAtHl
  /-- 0x6F `LD L,A`, R81. -/
  | ldLA
  /-- 0x70 `LD (HL),B`, R83. -/
  | ldAtHlB
  /-- 0x71 `LD (HL),C`, R83. -/
  | ldAtHlC
  /-- 0x72 `LD (HL),D`, R83. -/
  | ldAtHlD
  /-- 0x73 `LD (HL),E`, R83. -/
  | ldAtHlE
  /-- 0x74 `LD (HL),H`, R83. -/
  | ldAtHlH
  /-- 0x75 `LD (HL),L`, R83. -/
  | ldAtHlL
  /-- 0x76 `HALT`, R73. -/
  | halt
  /-- 0x77 `LD (HL),A`, R83. -/
  | ldAtHlA
  /-- 0x78 `LD A,B`, R81. -/
  | ldAB
  /-- 0x79 `LD A,C`, R81. -/
  | ldAC
  /-- 0x7A `LD A,D`, R81. -/
  | ldAD
  /-- 0x7B `LD A,E`, R81. -/
  | ldAE
  /-- 0x7C `LD A,H`, R81. -/
  | ldAH
  /-- 0x7D `LD A,L`, R81. -/
  | ldAL
  /-- 0x7E `LD A,(HL)`, R82. -/
  | ldAAtHl
  /-- 0x7F `LD A,A`, R81. -/
  | ldAA
  /-- 0x80 `ADD A,B`, R101. -/
  | addAB
  /-- 0x81 `ADD A,C`, R101. -/
  | addAC
  /-- 0x82 `ADD A,D`, R101. -/
  | addAD
  /-- 0x83 `ADD A,E`, R101. -/
  | addAE
  /-- 0x84 `ADD A,H`, R101. -/
  | addAH
  /-- 0x85 `ADD A,L`, R101. -/
  | addAL
  /-- 0x86 `ADD A,(HL)`, R101. -/
  | addAAtHl
  /-- 0x87 `ADD A,A`, R101. -/
  | addAA
  /-- 0xA0 `AND A,B`, R102. -/
  | andAB
  /-- 0xA1 `AND A,C`, R102. -/
  | andAC
  /-- 0xA2 `AND A,D`, R102. -/
  | andAD
  /-- 0xA3 `AND A,E`, R102. -/
  | andAE
  /-- 0xA4 `AND A,H`, R102. -/
  | andAH
  /-- 0xA5 `AND A,L`, R102. -/
  | andAL
  /-- 0xA6 `AND A,(HL)`, R102. -/
  | andAAtHl
  /-- 0xA7 `AND A,A`, R102. -/
  | andAA
  /-- 0xA8 `XOR A,B`, R103. -/
  | xorAB
  /-- 0xA9 `XOR A,C`, R103. -/
  | xorAC
  /-- 0xAA `XOR A,D`, R103. -/
  | xorAD
  /-- 0xAB `XOR A,E`, R103. -/
  | xorAE
  /-- 0xAC `XOR A,H`, R103. -/
  | xorAH
  /-- 0xAD `XOR A,L`, R103. -/
  | xorAL
  /-- 0xAE `XOR A,(HL)`, R103. -/
  | xorAAtHl
  /-- 0xAF `XOR A,A`, R103. -/
  | xorAA
  /-- 0xB0 `OR A,B`, R104. -/
  | orAB
  /-- 0xB1 `OR A,C`, R104. -/
  | orAC
  /-- 0xB2 `OR A,D`, R104. -/
  | orAD
  /-- 0xB3 `OR A,E`, R104. -/
  | orAE
  /-- 0xB4 `OR A,H`, R104. -/
  | orAH
  /-- 0xB5 `OR A,L`, R104. -/
  | orAL
  /-- 0xB6 `OR A,(HL)`, R104. -/
  | orAAtHl
  /-- 0xB7 `OR A,A`, R104. -/
  | orAA
  /-- 0xC3 `JP n16`, R116. -/
  | jpN16 (n16 : Addr)
  /-- 0xCD `CALL n16`, R117. -/
  | callN16 (n16 : Addr)
  /-- 0xD0 `RET NC`, R121. -/
  | retNc
  /-- 0xE0 `LDH (n8),A`, R92. -/
  | ldhAtN8A (n8 : Byte)
  /-- 0xE2 `LD (C),A`, R95. -/
  | ldAtCA
  /-- 0xEA `LD (n16),A`, R91. -/
  | ldAtN16A (n16 : Addr)
  /-- 0xF0 `LDH A,(n8)`, R93. -/
  | ldhAAtN8 (n8 : Byte)
  /-- 0xF2 `LD A,(C)`, R96. -/
  | ldAAtC
  /-- 0xF3 `DI`, R74. -/
  | di
  /-- One of the 125 bytes of R60, table mnemonic UNIMPLEMENTED, R70. Well-formed only for those bytes (`WellFormed`). -/
  | unimplemented (op : Byte)
deriving DecidableEq, Repr

/-- R58's rows: the instructions of one rule, with their register, operand or immediate as an argument. -/
inductive Form where
  | nop | halt | di
  /-- `LD r,r'`, R81. -/
  | ldRegReg (dst src : Reg)
  /-- `LD r,(HL)`, R82. -/
  | ldRegAtHl (dst : Reg)
  /-- `LD (HL),r`, R83. -/
  | ldAtHlReg (src : Reg)
  /-- `LD r,n8`, R84. -/
  | ldRegN8 (dst : Reg) (n8 : Byte)
  /-- `LD (HL),n8`, R84: always faults. -/
  | ldAtHlN8 (n8 : Byte)
  /-- `LD rr,n16`, R85. -/
  | ldPairN16 (p : Pair) (n16 : Addr)
  /-- `LD (HL+),A` R87 and `LD (HL-),A` R88. -/
  | ldAtHlStepA (k : HlStep)
  /-- `LD A,(HL+)` R89 and `LD A,(HL-)` R90. -/
  | ldAAtHlStep (k : HlStep)
  /-- `LD (n16),A`, R91. -/
  | ldAtN16A (n16 : Addr)
  /-- `LDH (n8),A`, R92. -/
  | ldhAtN8A (n8 : Byte)
  /-- `LDH A,(n8)`, R93. -/
  | ldhAAtN8 (n8 : Byte)
  /-- `LD (C),A`, R95. -/
  | ldAtCA
  /-- `LD A,(C)`, R96. -/
  | ldAAtC
  /-- `ADD`, `AND`, `XOR`, `OR` of `A` with a register or `(HL)`, R100 to R104. -/
  | alu (op : AluOp) (o : Operand)
  /-- `DEC r`, R107. -/
  | decReg (r : Reg)
  /-- `DEC (HL)`, R108: always faults. -/
  | decAtHl
  | jpN16 (n16 : Addr)
  | callN16 (n16 : Addr)
  | jpNzR8 (r8 : Byte)
  | retNc
  | unimplemented (op : Byte)
deriving DecidableEq, Repr

/-- The row of R58 an instruction belongs to. -/
def Instr.form : Instr → Form
  | .nop => .nop
  | .ldBcN16 n16 => .ldPairN16 .bc n16
  | .decB => .decReg .b
  | .ldBN8 n8 => .ldRegN8 .b n8
  | .decC => .decReg .c
  | .ldCN8 n8 => .ldRegN8 .c n8
  | .ldDeN16 n16 => .ldPairN16 .de n16
  | .decD => .decReg .d
  | .ldDN8 n8 => .ldRegN8 .d n8
  | .decE => .decReg .e
  | .ldEN8 n8 => .ldRegN8 .e n8
  | .jpNzR8 r8 => .jpNzR8 r8
  | .ldHlN16 n16 => .ldPairN16 .hl n16
  | .ldAtHlIncA => .ldAtHlStepA .inc
  | .decH => .decReg .h
  | .ldHN8 n8 => .ldRegN8 .h n8
  | .ldAAtHlInc => .ldAAtHlStep .inc
  | .decL => .decReg .l
  | .ldLN8 n8 => .ldRegN8 .l n8
  | .ldSpN16 n16 => .ldPairN16 .sp n16
  | .ldAtHlDecA => .ldAtHlStepA .dec
  | .decAtHl => .decAtHl
  | .ldAtHlN8 n8 => .ldAtHlN8 n8
  | .ldAAtHlDec => .ldAAtHlStep .dec
  | .decA => .decReg .a
  | .ldAN8 n8 => .ldRegN8 .a n8
  | .ldBB => .ldRegReg .b .b
  | .ldBC => .ldRegReg .b .c
  | .ldBD => .ldRegReg .b .d
  | .ldBE => .ldRegReg .b .e
  | .ldBH => .ldRegReg .b .h
  | .ldBL => .ldRegReg .b .l
  | .ldBAtHl => .ldRegAtHl .b
  | .ldBA => .ldRegReg .b .a
  | .ldCB => .ldRegReg .c .b
  | .ldCC => .ldRegReg .c .c
  | .ldCD => .ldRegReg .c .d
  | .ldCE => .ldRegReg .c .e
  | .ldCH => .ldRegReg .c .h
  | .ldCL => .ldRegReg .c .l
  | .ldCAtHl => .ldRegAtHl .c
  | .ldCA => .ldRegReg .c .a
  | .ldDB => .ldRegReg .d .b
  | .ldDC => .ldRegReg .d .c
  | .ldDD => .ldRegReg .d .d
  | .ldDE => .ldRegReg .d .e
  | .ldDH => .ldRegReg .d .h
  | .ldDL => .ldRegReg .d .l
  | .ldDAtHl => .ldRegAtHl .d
  | .ldDA => .ldRegReg .d .a
  | .ldEB => .ldRegReg .e .b
  | .ldEC => .ldRegReg .e .c
  | .ldED => .ldRegReg .e .d
  | .ldEE => .ldRegReg .e .e
  | .ldEH => .ldRegReg .e .h
  | .ldEL => .ldRegReg .e .l
  | .ldEAtHl => .ldRegAtHl .e
  | .ldEA => .ldRegReg .e .a
  | .ldHB => .ldRegReg .h .b
  | .ldHC => .ldRegReg .h .c
  | .ldHD => .ldRegReg .h .d
  | .ldHE => .ldRegReg .h .e
  | .ldHH => .ldRegReg .h .h
  | .ldHL => .ldRegReg .h .l
  | .ldHAtHl => .ldRegAtHl .h
  | .ldHA => .ldRegReg .h .a
  | .ldLB => .ldRegReg .l .b
  | .ldLC => .ldRegReg .l .c
  | .ldLD => .ldRegReg .l .d
  | .ldLE => .ldRegReg .l .e
  | .ldLH => .ldRegReg .l .h
  | .ldLL => .ldRegReg .l .l
  | .ldLAtHl => .ldRegAtHl .l
  | .ldLA => .ldRegReg .l .a
  | .ldAtHlB => .ldAtHlReg .b
  | .ldAtHlC => .ldAtHlReg .c
  | .ldAtHlD => .ldAtHlReg .d
  | .ldAtHlE => .ldAtHlReg .e
  | .ldAtHlH => .ldAtHlReg .h
  | .ldAtHlL => .ldAtHlReg .l
  | .halt => .halt
  | .ldAtHlA => .ldAtHlReg .a
  | .ldAB => .ldRegReg .a .b
  | .ldAC => .ldRegReg .a .c
  | .ldAD => .ldRegReg .a .d
  | .ldAE => .ldRegReg .a .e
  | .ldAH => .ldRegReg .a .h
  | .ldAL => .ldRegReg .a .l
  | .ldAAtHl => .ldRegAtHl .a
  | .ldAA => .ldRegReg .a .a
  | .addAB => .alu .add (.reg .b)
  | .addAC => .alu .add (.reg .c)
  | .addAD => .alu .add (.reg .d)
  | .addAE => .alu .add (.reg .e)
  | .addAH => .alu .add (.reg .h)
  | .addAL => .alu .add (.reg .l)
  | .addAAtHl => .alu .add .atHl
  | .addAA => .alu .add (.reg .a)
  | .andAB => .alu .and (.reg .b)
  | .andAC => .alu .and (.reg .c)
  | .andAD => .alu .and (.reg .d)
  | .andAE => .alu .and (.reg .e)
  | .andAH => .alu .and (.reg .h)
  | .andAL => .alu .and (.reg .l)
  | .andAAtHl => .alu .and .atHl
  | .andAA => .alu .and (.reg .a)
  | .xorAB => .alu .xor (.reg .b)
  | .xorAC => .alu .xor (.reg .c)
  | .xorAD => .alu .xor (.reg .d)
  | .xorAE => .alu .xor (.reg .e)
  | .xorAH => .alu .xor (.reg .h)
  | .xorAL => .alu .xor (.reg .l)
  | .xorAAtHl => .alu .xor .atHl
  | .xorAA => .alu .xor (.reg .a)
  | .orAB => .alu .or (.reg .b)
  | .orAC => .alu .or (.reg .c)
  | .orAD => .alu .or (.reg .d)
  | .orAE => .alu .or (.reg .e)
  | .orAH => .alu .or (.reg .h)
  | .orAL => .alu .or (.reg .l)
  | .orAAtHl => .alu .or .atHl
  | .orAA => .alu .or (.reg .a)
  | .jpN16 n16 => .jpN16 n16
  | .callN16 n16 => .callN16 n16
  | .retNc => .retNc
  | .ldhAtN8A n8 => .ldhAtN8A n8
  | .ldAtCA => .ldAtCA
  | .ldAtN16A n16 => .ldAtN16A n16
  | .ldhAAtN8 n8 => .ldhAAtN8 n8
  | .ldAAtC => .ldAAtC
  | .di => .di
  | .unimplemented op => .unimplemented op

/-- The instruction a row of R58 stands for with its operands: the inverse of `Instr.form`. -/
def Form.instr : Form → Instr
  | .nop => .nop
  | .ldPairN16 .bc n16 => .ldBcN16 n16
  | .decReg .b => .decB
  | .ldRegN8 .b n8 => .ldBN8 n8
  | .decReg .c => .decC
  | .ldRegN8 .c n8 => .ldCN8 n8
  | .ldPairN16 .de n16 => .ldDeN16 n16
  | .decReg .d => .decD
  | .ldRegN8 .d n8 => .ldDN8 n8
  | .decReg .e => .decE
  | .ldRegN8 .e n8 => .ldEN8 n8
  | .jpNzR8 r8 => .jpNzR8 r8
  | .ldPairN16 .hl n16 => .ldHlN16 n16
  | .ldAtHlStepA .inc => .ldAtHlIncA
  | .decReg .h => .decH
  | .ldRegN8 .h n8 => .ldHN8 n8
  | .ldAAtHlStep .inc => .ldAAtHlInc
  | .decReg .l => .decL
  | .ldRegN8 .l n8 => .ldLN8 n8
  | .ldPairN16 .sp n16 => .ldSpN16 n16
  | .ldAtHlStepA .dec => .ldAtHlDecA
  | .decAtHl => .decAtHl
  | .ldAtHlN8 n8 => .ldAtHlN8 n8
  | .ldAAtHlStep .dec => .ldAAtHlDec
  | .decReg .a => .decA
  | .ldRegN8 .a n8 => .ldAN8 n8
  | .ldRegReg .b .b => .ldBB
  | .ldRegReg .b .c => .ldBC
  | .ldRegReg .b .d => .ldBD
  | .ldRegReg .b .e => .ldBE
  | .ldRegReg .b .h => .ldBH
  | .ldRegReg .b .l => .ldBL
  | .ldRegAtHl .b => .ldBAtHl
  | .ldRegReg .b .a => .ldBA
  | .ldRegReg .c .b => .ldCB
  | .ldRegReg .c .c => .ldCC
  | .ldRegReg .c .d => .ldCD
  | .ldRegReg .c .e => .ldCE
  | .ldRegReg .c .h => .ldCH
  | .ldRegReg .c .l => .ldCL
  | .ldRegAtHl .c => .ldCAtHl
  | .ldRegReg .c .a => .ldCA
  | .ldRegReg .d .b => .ldDB
  | .ldRegReg .d .c => .ldDC
  | .ldRegReg .d .d => .ldDD
  | .ldRegReg .d .e => .ldDE
  | .ldRegReg .d .h => .ldDH
  | .ldRegReg .d .l => .ldDL
  | .ldRegAtHl .d => .ldDAtHl
  | .ldRegReg .d .a => .ldDA
  | .ldRegReg .e .b => .ldEB
  | .ldRegReg .e .c => .ldEC
  | .ldRegReg .e .d => .ldED
  | .ldRegReg .e .e => .ldEE
  | .ldRegReg .e .h => .ldEH
  | .ldRegReg .e .l => .ldEL
  | .ldRegAtHl .e => .ldEAtHl
  | .ldRegReg .e .a => .ldEA
  | .ldRegReg .h .b => .ldHB
  | .ldRegReg .h .c => .ldHC
  | .ldRegReg .h .d => .ldHD
  | .ldRegReg .h .e => .ldHE
  | .ldRegReg .h .h => .ldHH
  | .ldRegReg .h .l => .ldHL
  | .ldRegAtHl .h => .ldHAtHl
  | .ldRegReg .h .a => .ldHA
  | .ldRegReg .l .b => .ldLB
  | .ldRegReg .l .c => .ldLC
  | .ldRegReg .l .d => .ldLD
  | .ldRegReg .l .e => .ldLE
  | .ldRegReg .l .h => .ldLH
  | .ldRegReg .l .l => .ldLL
  | .ldRegAtHl .l => .ldLAtHl
  | .ldRegReg .l .a => .ldLA
  | .ldAtHlReg .b => .ldAtHlB
  | .ldAtHlReg .c => .ldAtHlC
  | .ldAtHlReg .d => .ldAtHlD
  | .ldAtHlReg .e => .ldAtHlE
  | .ldAtHlReg .h => .ldAtHlH
  | .ldAtHlReg .l => .ldAtHlL
  | .halt => .halt
  | .ldAtHlReg .a => .ldAtHlA
  | .ldRegReg .a .b => .ldAB
  | .ldRegReg .a .c => .ldAC
  | .ldRegReg .a .d => .ldAD
  | .ldRegReg .a .e => .ldAE
  | .ldRegReg .a .h => .ldAH
  | .ldRegReg .a .l => .ldAL
  | .ldRegAtHl .a => .ldAAtHl
  | .ldRegReg .a .a => .ldAA
  | .alu .add (.reg .b) => .addAB
  | .alu .add (.reg .c) => .addAC
  | .alu .add (.reg .d) => .addAD
  | .alu .add (.reg .e) => .addAE
  | .alu .add (.reg .h) => .addAH
  | .alu .add (.reg .l) => .addAL
  | .alu .add .atHl => .addAAtHl
  | .alu .add (.reg .a) => .addAA
  | .alu .and (.reg .b) => .andAB
  | .alu .and (.reg .c) => .andAC
  | .alu .and (.reg .d) => .andAD
  | .alu .and (.reg .e) => .andAE
  | .alu .and (.reg .h) => .andAH
  | .alu .and (.reg .l) => .andAL
  | .alu .and .atHl => .andAAtHl
  | .alu .and (.reg .a) => .andAA
  | .alu .xor (.reg .b) => .xorAB
  | .alu .xor (.reg .c) => .xorAC
  | .alu .xor (.reg .d) => .xorAD
  | .alu .xor (.reg .e) => .xorAE
  | .alu .xor (.reg .h) => .xorAH
  | .alu .xor (.reg .l) => .xorAL
  | .alu .xor .atHl => .xorAAtHl
  | .alu .xor (.reg .a) => .xorAA
  | .alu .or (.reg .b) => .orAB
  | .alu .or (.reg .c) => .orAC
  | .alu .or (.reg .d) => .orAD
  | .alu .or (.reg .e) => .orAE
  | .alu .or (.reg .h) => .orAH
  | .alu .or (.reg .l) => .orAL
  | .alu .or .atHl => .orAAtHl
  | .alu .or (.reg .a) => .orAA
  | .jpN16 n16 => .jpN16 n16
  | .callN16 n16 => .callN16 n16
  | .retNc => .retNc
  | .ldhAtN8A n8 => .ldhAtN8A n8
  | .ldAtCA => .ldAtCA
  | .ldAtN16A n16 => .ldAtN16A n16
  | .ldhAAtN8 n8 => .ldhAAtN8 n8
  | .ldAAtC => .ldAAtC
  | .di => .di
  | .unimplemented op => .unimplemented op

end Sys2Proof
end

