-- ==== Sys2Proof/WellFormed.lean ====
section
/-! DEFINITION. Which terms of `Instr` are instructions of the hardware. Every operand value is legal (spec/30_encoding.md R62), so the one
check is that `unimplemented` carries one of the 125 bytes of R60. -/

namespace Sys2Proof

/-- R60's list of unimplemented opcodes, as the ranges it gives. -/
def unimplementedRanges : List (Nat × Nat) :=
  [(0x02, 0x04), (0x07, 0x0C), (0x0F, 0x10), (0x12, 0x14), (0x17, 0x1C), (0x1F, 0x1F), (0x23, 0x24), (0x27, 0x29), (0x2B, 0x2C),
   (0x2F, 0x30), (0x33, 0x34), (0x37, 0x39), (0x3B, 0x3C), (0x3F, 0x3F), (0x88, 0x9F), (0xB8, 0xC2), (0xC4, 0xCC), (0xCE, 0xCF),
   (0xD1, 0xDF), (0xE1, 0xE1), (0xE3, 0xE9), (0xEB, 0xEF), (0xF1, 0xF1), (0xF4, 0xFF)]

/-- Is this byte one of R60's 125? -/
def isUnimplemented (op : Byte) : Bool :=
  unimplementedRanges.any fun r => decide (r.1 ≤ op.toNat) && decide (op.toNat ≤ r.2)

/-- An instruction of the hardware (R58, R60). -/
def WellFormed : Instr → Bool
  | .unimplemented op => isUnimplemented op
  | _ => true

end Sys2Proof
end

