-- ==== Sys2Proof/Decode.lean ====
section
/-! DEFINITION. Bytes to instructions and back (spec/30_encoding.md). The decoder reads the opcode's fields x, y, z (R52, R55); the encoder
is R58's list of opcodes written out. -/

namespace Sys2Proof

/-- `v[7:0]` (spec/00_scope.md R6 `lo8`). -/
def lo8 (v : Addr) : Byte := v.setWidth 8

/-- `v[15:8]` (R6 `hi8`). -/
def hi8 (v : Addr) : Byte := (v >>> 8).setWidth 8

/-- `{hi, lo}`, the 16-bit value `hi * 256 + lo` (R6). -/
def join16 (hi lo : Byte) : Addr := hi ++ lo

/-- `op[7:6]` (R52): the quadrant of the opcode map. -/
def fieldX (op : Byte) : BitVec 2 := op.extractLsb' 6 2

/-- `op[5:3]` (R52). -/
def fieldY (op : Byte) : Code := op.extractLsb' 3 3

/-- `op[2:0]` (R52). -/
def fieldZ (op : Byte) : Code := op.extractLsb' 0 3

/-- What a canonical register code names (spec/10_state.md R12). -/
def operandOfCode (c : Code) : Operand :=
  match c.toNat with
  | 0 => .reg .b
  | 1 => .reg .c
  | 2 => .reg .d
  | 3 => .reg .e
  | 4 => .reg .h
  | 5 => .reg .l
  | 6 => .atHl
  | _ => .reg .a

/-- The number of operand bytes the decoder reads after the opcode, by opcode (R57). `LD (C),A` and `LD A,(C)` have none. -/
def operandBytes (op : Byte) : Nat :=
  match op.toNat with
  | 0x01 | 0x11 | 0x21 | 0x31 | 0xC3 | 0xCD | 0xEA => 2
  | 0x06 | 0x0E | 0x16 | 0x1E | 0x26 | 0x2E | 0x36 | 0x3E | 0x20 | 0xE0 | 0xF0 => 1
  | _ => 0

/-- Quadrant 0 (0x00 to 0x3F): the opcodes selected by the whole byte, then `LD r,n8` (z = 6, R84) and `DEC r` (z = 5, R107) by `y`. -/
def formQuadrant0 (op n8 : Byte) (n16 : Addr) : Form :=
  match op.toNat with
  | 0x00 => .nop
  | 0x01 => .ldPairN16 .bc n16
  | 0x11 => .ldPairN16 .de n16
  | 0x21 => .ldPairN16 .hl n16
  | 0x31 => .ldPairN16 .sp n16
  | 0x20 => .jpNzR8 n8
  | 0x22 => .ldAtHlStepA .inc
  | 0x32 => .ldAtHlStepA .dec
  | 0x2A => .ldAAtHlStep .inc
  | 0x3A => .ldAAtHlStep .dec
  | _ =>
    if fieldZ op = 6 then
      match operandOfCode (fieldY op) with
      | .reg r => .ldRegN8 r n8
      | .atHl => .ldAtHlN8 n8
    else if fieldZ op = 5 then
      match operandOfCode (fieldY op) with
      | .reg r => .decReg r
      | .atHl => .decAtHl
    else .unimplemented op

/-- Quadrant 1 (0x40 to 0x7F): the register-to-register block, destination code `y`, source code `z` (R81 to R83). Code 6 in both fields is
0x76, `HALT` (R61). -/
def formQuadrant1 (op : Byte) : Form :=
  match operandOfCode (fieldY op), operandOfCode (fieldZ op) with
  | .reg dst, .reg src => .ldRegReg dst src
  | .reg dst, .atHl => .ldRegAtHl dst
  | .atHl, .reg src => .ldAtHlReg src
  | .atHl, .atHl => .halt

/-- Quadrant 2 (0x80 to 0xBF): `y` selects the operation, `z` is operand 1 (R52, R100). -/
def formQuadrant2 (op : Byte) : Form :=
  match (fieldY op).toNat with
  | 0 => .alu .add (operandOfCode (fieldZ op))
  | 4 => .alu .and (operandOfCode (fieldZ op))
  | 5 => .alu .xor (operandOfCode (fieldZ op))
  | 6 => .alu .or (operandOfCode (fieldZ op))
  | _ => .unimplemented op

/-- Quadrant 3 (0xC0 to 0xFF): selected by the whole byte. -/
def formQuadrant3 (op n8 : Byte) (n16 : Addr) : Form :=
  match op.toNat with
  | 0xC3 => .jpN16 n16
  | 0xCD => .callN16 n16
  | 0xD0 => .retNc
  | 0xE0 => .ldhAtN8A n8
  | 0xE2 => .ldAtCA
  | 0xEA => .ldAtN16A n16
  | 0xF0 => .ldhAAtN8 n8
  | 0xF2 => .ldAAtC
  | 0xF3 => .di
  | _ => .unimplemented op

/-- The instruction an opcode byte selects, given its operand (only the one its format has is used). Total: R56. -/
def formOf (op n8 : Byte) (n16 : Addr) : Form :=
  match (fieldX op).toNat with
  | 0 => formQuadrant0 op n8 n16
  | 1 => formQuadrant1 op
  | 2 => formQuadrant2 op
  | _ => formQuadrant3 op n8 n16

/-- The same as an instruction. -/
def instrOf (op n8 : Byte) (n16 : Addr) : Instr := (formOf op n8 n16).instr

/-- Why the decoder reads no instruction from a list of bytes. -/
inductive DecodeError where
  /-- There is not even an opcode byte. -/
  | noOpcode
  /-- The opcode's operand bytes are not all there (spec/40_dispatch_and_misc.md R67). -/
  | truncated (op : Byte)
deriving DecidableEq, Repr

/-- The decoder: the instruction at the head of a list of bytes and the bytes after it. `n16` is low byte first (R54). -/
def decode : List Byte → Except DecodeError (Instr × List Byte)
  | [] => .error .noOpcode
  | op :: rest =>
    match operandBytes op, rest with
    | 0, rest => .ok (instrOf op 0 0, rest)
    | 1, n8 :: rest => .ok (instrOf op n8 0, rest)
    | 2, lo :: hi :: rest => .ok (instrOf op 0 (join16 hi lo), rest)
    | _, _ => .error (.truncated op)

/-- The opcode byte of an instruction (R58). -/
def Instr.opcode : Instr → Byte
  | .nop => 0x00
  | .ldBcN16 _ => 0x01
  | .decB => 0x05
  | .ldBN8 _ => 0x06
  | .decC => 0x0D
  | .ldCN8 _ => 0x0E
  | .ldDeN16 _ => 0x11
  | .decD => 0x15
  | .ldDN8 _ => 0x16
  | .decE => 0x1D
  | .ldEN8 _ => 0x1E
  | .jpNzR8 _ => 0x20
  | .ldHlN16 _ => 0x21
  | .ldAtHlIncA => 0x22
  | .decH => 0x25
  | .ldHN8 _ => 0x26
  | .ldAAtHlInc => 0x2A
  | .decL => 0x2D
  | .ldLN8 _ => 0x2E
  | .ldSpN16 _ => 0x31
  | .ldAtHlDecA => 0x32
  | .decAtHl => 0x35
  | .ldAtHlN8 _ => 0x36
  | .ldAAtHlDec => 0x3A
  | .decA => 0x3D
  | .ldAN8 _ => 0x3E
  | .ldBB => 0x40
  | .ldBC => 0x41
  | .ldBD => 0x42
  | .ldBE => 0x43
  | .ldBH => 0x44
  | .ldBL => 0x45
  | .ldBAtHl => 0x46
  | .ldBA => 0x47
  | .ldCB => 0x48
  | .ldCC => 0x49
  | .ldCD => 0x4A
  | .ldCE => 0x4B
  | .ldCH => 0x4C
  | .ldCL => 0x4D
  | .ldCAtHl => 0x4E
  | .ldCA => 0x4F
  | .ldDB => 0x50
  | .ldDC => 0x51
  | .ldDD => 0x52
  | .ldDE => 0x53
  | .ldDH => 0x54
  | .ldDL => 0x55
  | .ldDAtHl => 0x56
  | .ldDA => 0x57
  | .ldEB => 0x58
  | .ldEC => 0x59
  | .ldED => 0x5A
  | .ldEE => 0x5B
  | .ldEH => 0x5C
  | .ldEL => 0x5D
  | .ldEAtHl => 0x5E
  | .ldEA => 0x5F
  | .ldHB => 0x60
  | .ldHC => 0x61
  | .ldHD => 0x62
  | .ldHE => 0x63
  | .ldHH => 0x64
  | .ldHL => 0x65
  | .ldHAtHl => 0x66
  | .ldHA => 0x67
  | .ldLB => 0x68
  | .ldLC => 0x69
  | .ldLD => 0x6A
  | .ldLE => 0x6B
  | .ldLH => 0x6C
  | .ldLL => 0x6D
  | .ldLAtHl => 0x6E
  | .ldLA => 0x6F
  | .ldAtHlB => 0x70
  | .ldAtHlC => 0x71
  | .ldAtHlD => 0x72
  | .ldAtHlE => 0x73
  | .ldAtHlH => 0x74
  | .ldAtHlL => 0x75
  | .halt => 0x76
  | .ldAtHlA => 0x77
  | .ldAB => 0x78
  | .ldAC => 0x79
  | .ldAD => 0x7A
  | .ldAE => 0x7B
  | .ldAH => 0x7C
  | .ldAL => 0x7D
  | .ldAAtHl => 0x7E
  | .ldAA => 0x7F
  | .addAB => 0x80
  | .addAC => 0x81
  | .addAD => 0x82
  | .addAE => 0x83
  | .addAH => 0x84
  | .addAL => 0x85
  | .addAAtHl => 0x86
  | .addAA => 0x87
  | .andAB => 0xA0
  | .andAC => 0xA1
  | .andAD => 0xA2
  | .andAE => 0xA3
  | .andAH => 0xA4
  | .andAL => 0xA5
  | .andAAtHl => 0xA6
  | .andAA => 0xA7
  | .xorAB => 0xA8
  | .xorAC => 0xA9
  | .xorAD => 0xAA
  | .xorAE => 0xAB
  | .xorAH => 0xAC
  | .xorAL => 0xAD
  | .xorAAtHl => 0xAE
  | .xorAA => 0xAF
  | .orAB => 0xB0
  | .orAC => 0xB1
  | .orAD => 0xB2
  | .orAE => 0xB3
  | .orAH => 0xB4
  | .orAL => 0xB5
  | .orAAtHl => 0xB6
  | .orAA => 0xB7
  | .jpN16 _ => 0xC3
  | .callN16 _ => 0xCD
  | .retNc => 0xD0
  | .ldhAtN8A _ => 0xE0
  | .ldAtCA => 0xE2
  | .ldAtN16A _ => 0xEA
  | .ldhAAtN8 _ => 0xF0
  | .ldAAtC => 0xF2
  | .di => 0xF3
  | .unimplemented op => op

/-- The operand bytes of an instruction, in memory order (R53, R54). -/
def Instr.operands : Instr → List Byte
  | .nop => []
  | .ldBcN16 n16 => [lo8 n16, hi8 n16]
  | .decB => []
  | .ldBN8 n8 => [n8]
  | .decC => []
  | .ldCN8 n8 => [n8]
  | .ldDeN16 n16 => [lo8 n16, hi8 n16]
  | .decD => []
  | .ldDN8 n8 => [n8]
  | .decE => []
  | .ldEN8 n8 => [n8]
  | .jpNzR8 r8 => [r8]
  | .ldHlN16 n16 => [lo8 n16, hi8 n16]
  | .ldAtHlIncA => []
  | .decH => []
  | .ldHN8 n8 => [n8]
  | .ldAAtHlInc => []
  | .decL => []
  | .ldLN8 n8 => [n8]
  | .ldSpN16 n16 => [lo8 n16, hi8 n16]
  | .ldAtHlDecA => []
  | .decAtHl => []
  | .ldAtHlN8 n8 => [n8]
  | .ldAAtHlDec => []
  | .decA => []
  | .ldAN8 n8 => [n8]
  | .ldBB => []
  | .ldBC => []
  | .ldBD => []
  | .ldBE => []
  | .ldBH => []
  | .ldBL => []
  | .ldBAtHl => []
  | .ldBA => []
  | .ldCB => []
  | .ldCC => []
  | .ldCD => []
  | .ldCE => []
  | .ldCH => []
  | .ldCL => []
  | .ldCAtHl => []
  | .ldCA => []
  | .ldDB => []
  | .ldDC => []
  | .ldDD => []
  | .ldDE => []
  | .ldDH => []
  | .ldDL => []
  | .ldDAtHl => []
  | .ldDA => []
  | .ldEB => []
  | .ldEC => []
  | .ldED => []
  | .ldEE => []
  | .ldEH => []
  | .ldEL => []
  | .ldEAtHl => []
  | .ldEA => []
  | .ldHB => []
  | .ldHC => []
  | .ldHD => []
  | .ldHE => []
  | .ldHH => []
  | .ldHL => []
  | .ldHAtHl => []
  | .ldHA => []
  | .ldLB => []
  | .ldLC => []
  | .ldLD => []
  | .ldLE => []
  | .ldLH => []
  | .ldLL => []
  | .ldLAtHl => []
  | .ldLA => []
  | .ldAtHlB => []
  | .ldAtHlC => []
  | .ldAtHlD => []
  | .ldAtHlE => []
  | .ldAtHlH => []
  | .ldAtHlL => []
  | .halt => []
  | .ldAtHlA => []
  | .ldAB => []
  | .ldAC => []
  | .ldAD => []
  | .ldAE => []
  | .ldAH => []
  | .ldAL => []
  | .ldAAtHl => []
  | .ldAA => []
  | .addAB => []
  | .addAC => []
  | .addAD => []
  | .addAE => []
  | .addAH => []
  | .addAL => []
  | .addAAtHl => []
  | .addAA => []
  | .andAB => []
  | .andAC => []
  | .andAD => []
  | .andAE => []
  | .andAH => []
  | .andAL => []
  | .andAAtHl => []
  | .andAA => []
  | .xorAB => []
  | .xorAC => []
  | .xorAD => []
  | .xorAE => []
  | .xorAH => []
  | .xorAL => []
  | .xorAAtHl => []
  | .xorAA => []
  | .orAB => []
  | .orAC => []
  | .orAD => []
  | .orAE => []
  | .orAH => []
  | .orAL => []
  | .orAAtHl => []
  | .orAA => []
  | .jpN16 n16 => [lo8 n16, hi8 n16]
  | .callN16 n16 => [lo8 n16, hi8 n16]
  | .retNc => []
  | .ldhAtN8A n8 => [n8]
  | .ldAtCA => []
  | .ldAtN16A n16 => [lo8 n16, hi8 n16]
  | .ldhAAtN8 n8 => [n8]
  | .ldAAtC => []
  | .di => []
  | .unimplemented _ => []

/-- The bytes of an instruction, the first at the lowest address (R51). -/
def encode (i : Instr) : List Byte := i.opcode :: i.operands

/-- Three bytes, the longest instruction, of an instruction word numbered as the table numbers it: bit 0 is the least significant bit of
the first byte, and every bit from `nbits` up is 0. -/
def tableBytes (nbits w : Nat) : List Byte :=
  let v := w % 2 ^ nbits
  [BitVec.ofNat 8 v, BitVec.ofNat 8 (v / 256), BitVec.ofNat 8 (v / 65536)]

/-- The instruction the decoder reads from a table word. -/
def decodeTableWord (nbits w : Nat) : Option Instr :=
  match decode (tableBytes nbits w) with
  | .ok (i, _) => some i
  | .error _ => none

end Sys2Proof
end

