-- ==== Sys2Proof/Config.lean ====
section
/-! DEFINITION. What is fixed for one machine (spec/00_scope.md R5) and the one uninterpreted constant. -/

namespace Sys2Proof

/-- `RESET_PC` (R5, spec/10_state.md R27). -/
def Config.resetPc : Addr := 0x0100#16

/-- `RESET_SP` (R5, R27). The spec notes that this literal is unaudited (spec/90_conflicts.md C9). -/
def Config.resetSp : Addr := 0xFFF3#16

/-- `MEM_SIZE` (R5): the number of bytes of `mem`. -/
abbrev Config.memSize : Nat := 0x10000

/-- `IO_SIZE` (R5): the number of bytes of `io`. -/
abbrev Config.ioSize : Nat := 0x80

/-- FREE VALUE. The mnemonic string of the trace record (spec/60_exceptions.md R146) for an opcode byte. The source never gives its
spelling (spec/30_encoding.md R64, spec/91_not_in_source.md N9), so it has no body and nothing can be proved of its value. Log 23. -/
opaque Config.traceMnemonic : Byte → String

end Sys2Proof
end

