-- ==== Sys2Proof/Machine/State.lean ====
section
/-! DEFINITION. The architectural state of rory CORE, exactly R10's list (spec/10_state.md), as plain data, and its reset values (R27). -/

namespace Sys2Proof.Machine

/-- The five fault kinds (spec/60_exceptions.md R130). They have no numeric codes (R131). -/
inductive FaultKind where
  /-- "write to a protected program-bank address" -/
  | readOnlyViolation
  /-- "register code 6 used where unsupported" -/
  | invalidRegisterAccess
  /-- "insufficient bytes remain for the decoded instruction's operands" -/
  | truncatedInstruction
  /-- "byte not in the dispatch table" -/
  | unimplementedOpcode
  /-- "explicit halt opcode reached" -/
  | haltEncountered
deriving DecidableEq, Repr

/-- The state of the fetch-decode-dispatch machine (R23): running, or faulted with the kind, the address of the faulting instruction's
opcode byte, and that byte. -/
inductive Run where
  | running
  | faulted (kind : FaultKind) (pc : Addr) (opcode : Byte)
deriving DecidableEq, Repr

/-- The seven 8-bit general registers (R11). -/
structure Regs where
  b : Byte
  c : Byte
  d : Byte
  e : Byte
  h : Byte
  l : Byte
  a : Byte
deriving DecidableEq, Repr

/-- The four flags (R19): zero, subtract, half-carry, carry. They are four separate bits of no register. -/
structure Flags where
  z : Bool
  n : Bool
  h : Bool
  c : Bool
deriving DecidableEq, Repr

/-- A byte array as the list of its cells that differ from what an unlisted index reads as, by rising index. `Memory.wf` (Machine/Ops.lean)
is that form. Log 22. -/
abbrev Memory := List Host.Cell

/-- `ProcessorState` and the loop's run state (R10). -/
structure State where
  /-- `A B C D E H L` (R11). -/
  regs : Regs
  /-- `F.z F.n F.h F.c` (R19). -/
  flags : Flags
  /-- The program counter (R16). -/
  pc : Addr
  /-- The stack pointer (R17). -/
  sp : Addr
  /-- The tick counter (R18), unbounded. -/
  ticks : Nat
  /-- The general memory array (R21), 65536 bytes indexed by address. -/
  mem : Memory
  /-- The backing store of the I/O window (R22), 128 bytes indexed by `addr - 0xFF00`. -/
  io : Memory
  /-- The state of the loop (R23). -/
  run : Run
deriving DecidableEq, Repr

/-- Why `step` stops. -/
inductive Fault where
  /-- Raised by `step`, and by nothing else, on a state whose `run` is already `faulted`: the core takes no step there, ever (R23, R65, R136).
  It carries the fault record. The cycle that faults is itself a NEXT state (R135, log 20). Safe: the machine stops where the hardware stops. -/
  | stopped (kind : FaultKind) (pc : Addr) (opcode : Byte)
deriving DecidableEq, Repr

/-- Why an instruction would have no meaning. -/
inductive Refusal where
  /-- Would be raised by `exec` for an instruction that has no meaning yet. No arm does. Safe. -/
  | notModelled (mnemonic : String)
deriving DecidableEq, Repr

/-- The state right after reset, before any program image is placed (R27, spec/70_reset_and_hazards.md R151 step 1). An unlisted byte of
`mem` and of `io` reads 0x00. Log 7, 8, 9, 22. -/
def State.reset : State where
  regs := { b := 0, c := 0, d := 0, e := 0, h := 0, l := 0, a := 0 }
  flags := { z := false, n := false, h := false, c := false }
  pc := Config.resetPc
  sp := Config.resetSp
  ticks := 0
  mem := []
  io := []
  run := .running

/-- The state right after reset with `INIT_MEM` given (R27, R151 step 2, R152): the parameter the spec leaves OPEN. Log 9. -/
def State.resetWith (initMem : Memory) : State :=
  { State.reset with mem := initMem }

end Sys2Proof.Machine
end

