-- ==== Sys2Proof/Machine/Ops.lean ====
section
/-! DEFINITION. The named operations over registers, memory, the stack and the run state, which every meaning is written over. -/

namespace Sys2Proof.Machine

/-! ## Byte arrays -/

/-- What an index that no cell lists reads as: memory is zero-filled at reset (spec/10_state.md R27), and so is `io` (R27, log 7, log 22). -/
def Memory.unlisted : Byte := 0

/-- The byte at an index. -/
def Memory.read : Memory → Nat → Byte
  | [], _ => Memory.unlisted
  | (k, v) :: m, a => if k = a then v else Memory.read m a

/-- Put a cell in its place by rising index. -/
def Memory.insert : Memory → Nat → Byte → Memory
  | [], a, v => [(a, v)]
  | (k, w) :: m, a, v =>
    if a < k then (a, v) :: (k, w) :: m
    else if a = k then (a, v) :: m
    else (k, w) :: Memory.insert m a v

/-- Drop the cells of an index. -/
def Memory.erase : Memory → Nat → Memory
  | [], _ => []
  | (k, w) :: m, a => if k = a then Memory.erase m a else (k, w) :: Memory.erase m a

/-- Replace the byte at an index, keeping the canonical form. -/
def Memory.write (m : Memory) (a : Nat) (v : Byte) : Memory :=
  if v = Memory.unlisted then Memory.erase m a else Memory.insert m a v

/-- Indexes strictly rise. -/
def Memory.sorted : Memory → Bool
  | [] => true
  | (k, _) :: m => m.all (fun cell => decide (k < cell.1)) && Memory.sorted m

/-- The canonical form of an array of `size` bytes: indexes strictly rise and lie below `size`, and no cell holds what an unlisted index reads as. -/
def Memory.wf (size : Nat) (m : Memory) : Bool :=
  Memory.sorted m && m.all (fun cell => decide (cell.1 < size) && decide (cell.2 ≠ Memory.unlisted))

/-! ## The address map (spec/20_memory.md R34) -/

/-- The write-protected range 0x0100 to 0x7FFF (R33, R35). -/
def isProtected (a : Addr) : Bool := decide (0x0100 ≤ a.toNat) && decide (a.toNat ≤ 0x7FFF)

/-- The I/O window 0xFF00 to 0xFF7F (R32, R36). -/
def inWindow (a : Addr) : Bool := decide (0xFF00 ≤ a.toNat) && decide (a.toNat ≤ 0xFF7F)

/-- The index in `io` of a window address (spec/10_state.md R22, log 12). -/
def ioIndex (a : Addr) : Nat := (a - 0xFF00#16).toNat

/-! ## Registers (spec/10_state.md R11 to R14) -/

/-- The value of a general register. -/
def State.getReg (s : State) : Reg → Byte
  | .b => s.regs.b
  | .c => s.regs.c
  | .d => s.regs.d
  | .e => s.regs.e
  | .h => s.regs.h
  | .l => s.regs.l
  | .a => s.regs.a

/-- Replace a general register and nothing else (R13). -/
def State.setReg (s : State) (r : Reg) (v : Byte) : State :=
  match r with
  | .b => { s with regs := { s.regs with b := v } }
  | .c => { s with regs := { s.regs with c := v } }
  | .d => { s with regs := { s.regs with d := v } }
  | .e => { s with regs := { s.regs with e := v } }
  | .h => { s with regs := { s.regs with h := v } }
  | .l => { s with regs := { s.regs with l := v } }
  | .a => { s with regs := { s.regs with a := v } }

/-- `get_hl()`: `{H, L}` (R14). -/
def State.hl (s : State) : Addr := join16 s.regs.h s.regs.l

/-- `set_hl(v)`: `H` gets the high byte, `L` the low byte (R14). -/
def State.setHl (s : State) (v : Addr) : State :=
  { s with regs := { s.regs with h := hi8 v, l := lo8 v } }

/-! ## Memory (spec/20_memory.md R32, R33) -/

/-- `MemRead(addr, 1)` (R32): never faults, changes nothing. -/
def State.memRead (s : State) (a : Addr) : Byte :=
  if inWindow a then s.io.read (ioIndex a) else s.mem.read a.toNat

/-- `MemWrite(addr, 1, v)` (R33). -/
def State.memWrite (s : State) (a : Addr) (v : Byte) : Except FaultKind State :=
  if isProtected a then .error .readOnlyViolation
  else if inWindow a then .ok { s with io := s.io.write (ioIndex a) v }
  else .ok { s with mem := s.mem.write a.toNat v }

/-! ## The stack (spec/20_memory.md R38 to R40) -/

/-- `Push16(v)` (R38): low byte at `sp - 1`, high byte at `sp - 2`. Either write may raise `ReadOnlyViolation` (R40). -/
def State.push16 (s : State) (v : Addr) : Except FaultKind State :=
  let s1 := { s with sp := s.sp - 1#16 }
  match s1.memWrite s1.sp (lo8 v) with
  | .error k => .error k
  | .ok s2 =>
    let s3 := { s2 with sp := s2.sp - 1#16 }
    s3.memWrite s3.sp (hi8 v)

/-- `Pop16()` (R39): the 16-bit value, high byte at `sp` and low byte at `sp + 1`, and the state with `sp` moved. -/
def State.pop16 (s : State) : Addr × State :=
  let hi := s.memRead s.sp
  let s1 := { s with sp := s.sp + 1#16 }
  let lo := s1.memRead s1.sp
  (join16 hi lo, { s1 with sp := s1.sp + 1#16 })

/-! ## How a cycle ends -/

/-- TAKING A FAULT (spec/60_exceptions.md R135): `run` becomes `faulted(kind, pc, opcode)` and nothing else changes. It is given the state
before the cycle, so every write of the faulting instruction is discarded (R71, log 4). There is no return from a fault: R136 says that
only reset leaves the faulted state, so no operation of the core stands beside this one. -/
def State.takeFault (s : State) (k : FaultKind) (opcode : Byte) : State :=
  { s with run := .faulted k s.pc opcode }

/-- A cycle that faults: the NEXT state is the faulted one (log 20). -/
def raise (k : FaultKind) (opcode : Byte) (s : State) : Host.Outcome State Fault Refusal :=
  .next (s.takeFault k opcode)

/-- A cycle that completes with a given new `pc` and adds its cost to `ticks` (spec/40_dispatch_and_misc.md R69). -/
def finishAt (target : Addr) (cost : Nat) (s : State) : Host.Outcome State Fault Refusal :=
  .next { s with pc := target, ticks := s.ticks + cost }

/-- A cycle that completes and falls through: `pc` advances modulo 2^16 (R16, log 1). -/
def advance (n : Addr) (cost : Nat) (s : State) : Host.Outcome State Fault Refusal :=
  finishAt (s.pc + n) cost s

end Sys2Proof.Machine
end

