-- ==== Sys2Proof/Machine/Flags.lean ====
section
/-! DEFINITION. The results and flag computations of the ALU (spec/42_alu.md) and the conditions that read flags
(spec/43_control_flow.md R118). -/

namespace Sys2Proof.Machine

/-- `ADD` (R101): wrapping sum. Computed on natural numbers, so that both carries are comparisons with the exact sum. -/
def aluAdd (x y : Byte) : Byte × Flags :=
  let result := BitVec.ofNat 8 (x.toNat + y.toNat)
  (result,
    { z := decide (result = 0#8)
      n := false
      h := decide (x.toNat % 16 + y.toNat % 16 > 0xF)
      c := decide (x.toNat + y.toNat ≥ 256) })

/-- `AND` (R102): half-carry is set whatever the operands. -/
def aluAnd (x y : Byte) : Byte × Flags :=
  (x &&& y, { z := decide (x &&& y = 0#8), n := false, h := true, c := false })

/-- `XOR` (R103). -/
def aluXor (x y : Byte) : Byte × Flags :=
  (x ^^^ y, { z := decide (x ^^^ y = 0#8), n := false, h := false, c := false })

/-- `OR` (R104). -/
def aluOr (x y : Byte) : Byte × Flags :=
  (x ||| y, { z := decide (x ||| y = 0#8), n := false, h := false, c := false })

/-- `DEC` (R107): the wrapping decrement, `F.h = (new != 0x0F)` as the source states it (log 19), `F.c` kept. -/
def aluDec (old : Byte) (f : Flags) : Byte × Flags :=
  let new := old - 1#8
  (new, { z := decide (new = 0#8), n := true, h := decide (new ≠ 0x0F#8), c := f.c })

/-- Does a condition hold on the flags (R118, log 15)? `Zero` is reachable by no opcode. -/
def condHolds (f : Flags) : Cond → Bool
  | .zero => f.z
  | .notZero => !f.z
  | .noCarry => !f.c

end Sys2Proof.Machine
end

