-- ==== Sys2Proof/Machine/Operands.lean ====
section
/-! DEFINITION. The operand forms (spec/30_encoding.md R53 to R55; spec/41_register_transfer.md R80). -/

namespace Sys2Proof.Machine

/-- `x[c]`, the source's `get_register(code)` (spec/10_state.md R13): code 6 is no register and raises `InvalidRegisterAccess` (log 10). -/
def State.getCode (s : State) : Operand → Except FaultKind Byte
  | .reg r => .ok (s.getReg r)
  | .atHl => .error .invalidRegisterAccess

/-- `x[c] <- v`, the source's `set_register(code, value)` (R13). -/
def State.setCode (s : State) (o : Operand) (v : Byte) : Except FaultKind State :=
  match o with
  | .reg r => .ok (s.setReg r v)
  | .atHl => .error .invalidRegisterAccess

/-- Operand 1 of `ADD`, `AND`, `XOR`, `OR` (spec/42_alu.md R100), where code 6 is the byte at `HL`. -/
def State.operand (s : State) : Operand → Byte
  | .reg r => s.getReg r
  | .atHl => s.memRead s.hl

/-- The cost R100 gives an operand: 8 ticks through `(HL)`, otherwise 4. -/
def operandCost : Operand → Nat
  | .reg _ => 4
  | .atHl => 8

/-- The high-page address `0xFF00 + offset`, offset zero-extended (spec/20_memory.md R44, log 17). -/
def highPage (offset : Byte) : Addr := 0xFF00#16 + offset.setWidth 16

/-- The value of `HL` after the adjustment of `(HL+)` or `(HL-)`, modulo 2^16 (R86, log 1). -/
def stepHl (k : HlStep) (hl : Addr) : Addr :=
  match k with
  | .inc => hl + 1#16
  | .dec => hl - 1#16

/-- The target of a taken `JP NZ,r8`: the byte, two's complement, relative to the address after the 2-byte instruction
(spec/43_control_flow.md R119, log 1). -/
def relativeTarget (pc : Addr) (r8 : Byte) : Addr := pc + 2#16 + r8.signExtend 16

/-- Replace a register pair, or `sp`, by a 16-bit value: the first-named register gets the high byte (spec/41_register_transfer.md R85). -/
def State.setPair (s : State) (p : Pair) (v : Addr) : State :=
  match p with
  | .bc => (s.setReg .b (hi8 v)).setReg .c (lo8 v)
  | .de => (s.setReg .d (hi8 v)).setReg .e (lo8 v)
  | .hl => s.setHl v
  | .sp => { s with sp := v }

end Sys2Proof.Machine
end

