-- ==== Sys2Proof/Machine/Alu.lean ====
section
/-! DEFINITION. The arithmetic/logic unit (spec/42_alu.md): ADD, AND, XOR, OR, DEC. -/

namespace Sys2Proof.Machine

/-! ## Shared operations -/

/-- The common shape of `ADD`, `AND`, `XOR`, `OR` (R100): operand 0 is `A`, the result goes to `A`, all four flags are written. -/
def accumulate (f : Byte → Byte → Byte × Flags) (o : Operand) (s : State) : Host.Outcome State Fault Refusal :=
  let r := f s.regs.a (s.operand o)
  advance 1#16 (operandCost o) { s.setReg .a r.1 with flags := r.2 }

/-- `DEC r` (R107): code 6 raises `InvalidRegisterAccess` (R108) before anything is written. -/
def decCode (opcode : Byte) (o : Operand) (s : State) : Host.Outcome State Fault Refusal :=
  match s.getCode o with
  | .error k => raise k opcode s
  | .ok old =>
    let r := aluDec old s.flags
    match s.setCode o r.1 with
    | .error k => raise k opcode s
    | .ok s1 => advance 1#16 4 { s1 with flags := r.2 }

/-! ## The instructions -/

/-- `ADD A,B`, 0x80, R101. -/
def execAddAB (s : State) : Host.Outcome State Fault Refusal :=
  accumulate aluAdd (.reg .b) s

/-- `ADD A,C`, 0x81, R101. -/
def execAddAC (s : State) : Host.Outcome State Fault Refusal :=
  accumulate aluAdd (.reg .c) s

/-- `ADD A,D`, 0x82, R101. -/
def execAddAD (s : State) : Host.Outcome State Fault Refusal :=
  accumulate aluAdd (.reg .d) s

/-- `ADD A,E`, 0x83, R101. -/
def execAddAE (s : State) : Host.Outcome State Fault Refusal :=
  accumulate aluAdd (.reg .e) s

/-- `ADD A,H`, 0x84, R101. -/
def execAddAH (s : State) : Host.Outcome State Fault Refusal :=
  accumulate aluAdd (.reg .h) s

/-- `ADD A,L`, 0x85, R101. -/
def execAddAL (s : State) : Host.Outcome State Fault Refusal :=
  accumulate aluAdd (.reg .l) s

/-- `ADD A,(HL)`, 0x86, R101. -/
def execAddAAtHl (s : State) : Host.Outcome State Fault Refusal :=
  accumulate aluAdd .atHl s

/-- `ADD A,A`, 0x87, R101. -/
def execAddAA (s : State) : Host.Outcome State Fault Refusal :=
  accumulate aluAdd (.reg .a) s

/-- `AND A,B`, 0xA0, R102. -/
def execAndAB (s : State) : Host.Outcome State Fault Refusal :=
  accumulate aluAnd (.reg .b) s

/-- `AND A,C`, 0xA1, R102. -/
def execAndAC (s : State) : Host.Outcome State Fault Refusal :=
  accumulate aluAnd (.reg .c) s

/-- `AND A,D`, 0xA2, R102. -/
def execAndAD (s : State) : Host.Outcome State Fault Refusal :=
  accumulate aluAnd (.reg .d) s

/-- `AND A,E`, 0xA3, R102. -/
def execAndAE (s : State) : Host.Outcome State Fault Refusal :=
  accumulate aluAnd (.reg .e) s

/-- `AND A,H`, 0xA4, R102. -/
def execAndAH (s : State) : Host.Outcome State Fault Refusal :=
  accumulate aluAnd (.reg .h) s

/-- `AND A,L`, 0xA5, R102. -/
def execAndAL (s : State) : Host.Outcome State Fault Refusal :=
  accumulate aluAnd (.reg .l) s

/-- `AND A,(HL)`, 0xA6, R102. -/
def execAndAAtHl (s : State) : Host.Outcome State Fault Refusal :=
  accumulate aluAnd .atHl s

/-- `AND A,A`, 0xA7, R102. -/
def execAndAA (s : State) : Host.Outcome State Fault Refusal :=
  accumulate aluAnd (.reg .a) s

/-- `XOR A,B`, 0xA8, R103. -/
def execXorAB (s : State) : Host.Outcome State Fault Refusal :=
  accumulate aluXor (.reg .b) s

/-- `XOR A,C`, 0xA9, R103. -/
def execXorAC (s : State) : Host.Outcome State Fault Refusal :=
  accumulate aluXor (.reg .c) s

/-- `XOR A,D`, 0xAA, R103. -/
def execXorAD (s : State) : Host.Outcome State Fault Refusal :=
  accumulate aluXor (.reg .d) s

/-- `XOR A,E`, 0xAB, R103. -/
def execXorAE (s : State) : Host.Outcome State Fault Refusal :=
  accumulate aluXor (.reg .e) s

/-- `XOR A,H`, 0xAC, R103. -/
def execXorAH (s : State) : Host.Outcome State Fault Refusal :=
  accumulate aluXor (.reg .h) s

/-- `XOR A,L`, 0xAD, R103. -/
def execXorAL (s : State) : Host.Outcome State Fault Refusal :=
  accumulate aluXor (.reg .l) s

/-- `XOR A,(HL)`, 0xAE, R103. -/
def execXorAAtHl (s : State) : Host.Outcome State Fault Refusal :=
  accumulate aluXor .atHl s

/-- `XOR A,A`, 0xAF, R103. -/
def execXorAA (s : State) : Host.Outcome State Fault Refusal :=
  accumulate aluXor (.reg .a) s

/-- `OR A,B`, 0xB0, R104. -/
def execOrAB (s : State) : Host.Outcome State Fault Refusal :=
  accumulate aluOr (.reg .b) s

/-- `OR A,C`, 0xB1, R104. -/
def execOrAC (s : State) : Host.Outcome State Fault Refusal :=
  accumulate aluOr (.reg .c) s

/-- `OR A,D`, 0xB2, R104. -/
def execOrAD (s : State) : Host.Outcome State Fault Refusal :=
  accumulate aluOr (.reg .d) s

/-- `OR A,E`, 0xB3, R104. -/
def execOrAE (s : State) : Host.Outcome State Fault Refusal :=
  accumulate aluOr (.reg .e) s

/-- `OR A,H`, 0xB4, R104. -/
def execOrAH (s : State) : Host.Outcome State Fault Refusal :=
  accumulate aluOr (.reg .h) s

/-- `OR A,L`, 0xB5, R104. -/
def execOrAL (s : State) : Host.Outcome State Fault Refusal :=
  accumulate aluOr (.reg .l) s

/-- `OR A,(HL)`, 0xB6, R104. -/
def execOrAAtHl (s : State) : Host.Outcome State Fault Refusal :=
  accumulate aluOr .atHl s

/-- `OR A,A`, 0xB7, R104. -/
def execOrAA (s : State) : Host.Outcome State Fault Refusal :=
  accumulate aluOr (.reg .a) s

/-- `DEC B`, 0x05, R107. -/
def execDecB (s : State) : Host.Outcome State Fault Refusal :=
  decCode 0x05 (.reg .b) s

/-- `DEC C`, 0x0D, R107. -/
def execDecC (s : State) : Host.Outcome State Fault Refusal :=
  decCode 0x0D (.reg .c) s

/-- `DEC D`, 0x15, R107. -/
def execDecD (s : State) : Host.Outcome State Fault Refusal :=
  decCode 0x15 (.reg .d) s

/-- `DEC E`, 0x1D, R107. -/
def execDecE (s : State) : Host.Outcome State Fault Refusal :=
  decCode 0x1D (.reg .e) s

/-- `DEC H`, 0x25, R107. -/
def execDecH (s : State) : Host.Outcome State Fault Refusal :=
  decCode 0x25 (.reg .h) s

/-- `DEC L`, 0x2D, R107. -/
def execDecL (s : State) : Host.Outcome State Fault Refusal :=
  decCode 0x2D (.reg .l) s

/-- `DEC A`, 0x3D, R107. -/
def execDecA (s : State) : Host.Outcome State Fault Refusal :=
  decCode 0x3D (.reg .a) s

/-- `DEC (HL)`, 0x35, R108. Always faults (log 10). -/
def execDecAtHl (s : State) : Host.Outcome State Fault Refusal :=
  decCode 0x35 .atHl s

end Sys2Proof.Machine
end

