-- ==== Sys2Proof/Machine/ControlFlow.lean ====
section
/-! DEFINITION. The control flow unit (spec/43_control_flow.md): JP n16, CALL n16, JP NZ,r8, RET NC. No flag and no general register changes (R115). -/

namespace Sys2Proof.Machine

/-! ## Shared operations -/

/-- `CALL n16` (R117): push `pc + 3`, then jump. If either stack byte is protected nothing changes but `run`. -/
def call (opcode : Byte) (n16 : Addr) (s : State) : Host.Outcome State Fault Refusal :=
  match s.push16 (s.pc + 3#16) with
  | .error k => raise k opcode s
  | .ok s1 => finishAt n16 24 s1

/-- The conditional relative jump (R119): 12 ticks taken, 8 not taken. -/
def jumpRelativeIf (c : Cond) (r8 : Byte) (s : State) : Host.Outcome State Fault Refusal :=
  if condHolds s.flags c then finishAt (relativeTarget s.pc r8) 12 s else advance 2#16 8 s

/-- The conditional return (R121): 20 ticks taken, 8 not taken. Not taken, the stack is not read. -/
def returnIf (c : Cond) (s : State) : Host.Outcome State Fault Refusal :=
  if condHolds s.flags c then finishAt s.pop16.1 20 s.pop16.2 else advance 1#16 8 s

/-! ## The instructions -/

/-- `JP n16`, 0xC3, R116. -/
def execJpN16 (n16 : Addr) (s : State) : Host.Outcome State Fault Refusal :=
  finishAt n16 16 s

/-- `CALL n16`, 0xCD, R117. -/
def execCallN16 (n16 : Addr) (s : State) : Host.Outcome State Fault Refusal :=
  call 0xCD n16 s

/-- `JP NZ,r8`, 0x20, R119. -/
def execJpNzR8 (r8 : Byte) (s : State) : Host.Outcome State Fault Refusal :=
  jumpRelativeIf .notZero r8 s

/-- `RET NC`, 0xD0, R121. -/
def execRetNc (s : State) : Host.Outcome State Fault Refusal :=
  returnIf .noCarry s

end Sys2Proof.Machine
end

