-- ==== Sys2Proof/Machine/Loop.lean ====
section
/-! DEFINITION. The instructions the loop handles itself (spec/40_dispatch_and_misc.md): NOP, HALT, DI and the 125 unimplemented bytes. -/

namespace Sys2Proof.Machine

/-- `NOP`, 0x00, R72. -/
def execNop (s : State) : Host.Outcome State Fault Refusal :=
  advance 1#16 4 s

/-- `HALT`, 0x76, R73. Always faults. -/
def execHalt (s : State) : Host.Outcome State Fault Refusal :=
  raise .haltEncountered 0x76 s

/-- `DI`, 0xF3, R74. No interrupt-enable state exists for it to clear (log 13). -/
def execDi (s : State) : Host.Outcome State Fault Refusal :=
  advance 1#16 4 s

/-- One of the 125 unimplemented bytes, R70: always faults, with the byte in the record. -/
def execUnimplemented (op : Byte) (s : State) : Host.Outcome State Fault Refusal :=
  raise .unimplementedOpcode op s

end Sys2Proof.Machine
end

