-- ==== Sys2Proof/Machine/RegisterTransfer.lean ====
section
/-! DEFINITION. The register transfer unit (spec/41_register_transfer.md): the loads and stores. No instruction here changes a flag (R80). -/

namespace Sys2Proof.Machine

/-! ## Shared operations -/

/-- `LD r,r'` (R81). -/
def ldRegReg (dst src : Reg) (s : State) : Host.Outcome State Fault Refusal :=
  advance 1#16 4 (s.setReg dst (s.getReg src))

/-- `LD r,(HL)` (R82): the address is `HL` before the load (log 14). -/
def ldRegAtHl (dst : Reg) (s : State) : Host.Outcome State Fault Refusal :=
  advance 1#16 8 (s.setReg dst (s.memRead s.hl))

/-- `LD (HL),r` (R83). -/
def ldAtHlReg (opcode : Byte) (src : Reg) (s : State) : Host.Outcome State Fault Refusal :=
  match s.memWrite s.hl (s.getReg src) with
  | .error k => raise k opcode s
  | .ok s1 => advance 1#16 8 s1

/-- `LD r,n8` (R84): destination code 6 raises `InvalidRegisterAccess`. -/
def ldCodeN8 (opcode : Byte) (dst : Operand) (n8 : Byte) (s : State) : Host.Outcome State Fault Refusal :=
  match s.setCode dst n8 with
  | .error k => raise k opcode s
  | .ok s1 => advance 2#16 8 s1

/-- `LD rr,n16` (R85, log 11). -/
def ldPairN16 (p : Pair) (n16 : Addr) (s : State) : Host.Outcome State Fault Refusal :=
  advance 3#16 12 (s.setPair p n16)

/-- `LD (HL+),A` and `LD (HL-),A` (R86 to R88): the store uses `HL` before the adjustment, and a faulting store leaves `HL` alone. -/
def ldAtHlStepA (opcode : Byte) (k : HlStep) (s : State) : Host.Outcome State Fault Refusal :=
  match s.memWrite s.hl s.regs.a with
  | .error f => raise f opcode s
  | .ok s1 => advance 1#16 8 (s1.setHl (stepHl k s.hl))

/-- `LD A,(HL+)` and `LD A,(HL-)` (R86, R89, R90). -/
def ldAAtHlStep (k : HlStep) (s : State) : Host.Outcome State Fault Refusal :=
  advance 1#16 8 ((s.setReg .a (s.memRead s.hl)).setHl (stepHl k s.hl))

/-- Store `A` at an address: `LD (n16),A` (R91), `LDH (n8),A` (R92), `LD (C),A` (R95). -/
def storeA (opcode : Byte) (addr n : Addr) (cost : Nat) (s : State) : Host.Outcome State Fault Refusal :=
  match s.memWrite addr s.regs.a with
  | .error k => raise k opcode s
  | .ok s1 => advance n cost s1

/-- Load `A` from an address: `LDH A,(n8)` (R93), `LD A,(C)` (R96). -/
def loadA (addr n : Addr) (cost : Nat) (s : State) : Host.Outcome State Fault Refusal :=
  advance n cost (s.setReg .a (s.memRead addr))

/-! ## The instructions -/

/-- `LD B,B`, 0x40, R81. -/
def execLdBB (s : State) : Host.Outcome State Fault Refusal :=
  ldRegReg .b .b s

/-- `LD B,C`, 0x41, R81. -/
def execLdBC (s : State) : Host.Outcome State Fault Refusal :=
  ldRegReg .b .c s

/-- `LD B,D`, 0x42, R81. -/
def execLdBD (s : State) : Host.Outcome State Fault Refusal :=
  ldRegReg .b .d s

/-- `LD B,E`, 0x43, R81. -/
def execLdBE (s : State) : Host.Outcome State Fault Refusal :=
  ldRegReg .b .e s

/-- `LD B,H`, 0x44, R81. -/
def execLdBH (s : State) : Host.Outcome State Fault Refusal :=
  ldRegReg .b .h s

/-- `LD B,L`, 0x45, R81. -/
def execLdBL (s : State) : Host.Outcome State Fault Refusal :=
  ldRegReg .b .l s

/-- `LD B,A`, 0x47, R81. -/
def execLdBA (s : State) : Host.Outcome State Fault Refusal :=
  ldRegReg .b .a s

/-- `LD C,B`, 0x48, R81. -/
def execLdCB (s : State) : Host.Outcome State Fault Refusal :=
  ldRegReg .c .b s

/-- `LD C,C`, 0x49, R81. -/
def execLdCC (s : State) : Host.Outcome State Fault Refusal :=
  ldRegReg .c .c s

/-- `LD C,D`, 0x4A, R81. -/
def execLdCD (s : State) : Host.Outcome State Fault Refusal :=
  ldRegReg .c .d s

/-- `LD C,E`, 0x4B, R81. -/
def execLdCE (s : State) : Host.Outcome State Fault Refusal :=
  ldRegReg .c .e s

/-- `LD C,H`, 0x4C, R81. -/
def execLdCH (s : State) : Host.Outcome State Fault Refusal :=
  ldRegReg .c .h s

/-- `LD C,L`, 0x4D, R81. -/
def execLdCL (s : State) : Host.Outcome State Fault Refusal :=
  ldRegReg .c .l s

/-- `LD C,A`, 0x4F, R81. -/
def execLdCA (s : State) : Host.Outcome State Fault Refusal :=
  ldRegReg .c .a s

/-- `LD D,B`, 0x50, R81. -/
def execLdDB (s : State) : Host.Outcome State Fault Refusal :=
  ldRegReg .d .b s

/-- `LD D,C`, 0x51, R81. -/
def execLdDC (s : State) : Host.Outcome State Fault Refusal :=
  ldRegReg .d .c s

/-- `LD D,D`, 0x52, R81. -/
def execLdDD (s : State) : Host.Outcome State Fault Refusal :=
  ldRegReg .d .d s

/-- `LD D,E`, 0x53, R81. -/
def execLdDE (s : State) : Host.Outcome State Fault Refusal :=
  ldRegReg .d .e s

/-- `LD D,H`, 0x54, R81. -/
def execLdDH (s : State) : Host.Outcome State Fault Refusal :=
  ldRegReg .d .h s

/-- `LD D,L`, 0x55, R81. -/
def execLdDL (s : State) : Host.Outcome State Fault Refusal :=
  ldRegReg .d .l s

/-- `LD D,A`, 0x57, R81. -/
def execLdDA (s : State) : Host.Outcome State Fault Refusal :=
  ldRegReg .d .a s

/-- `LD E,B`, 0x58, R81. -/
def execLdEB (s : State) : Host.Outcome State Fault Refusal :=
  ldRegReg .e .b s

/-- `LD E,C`, 0x59, R81. -/
def execLdEC (s : State) : Host.Outcome State Fault Refusal :=
  ldRegReg .e .c s

/-- `LD E,D`, 0x5A, R81. -/
def execLdED (s : State) : Host.Outcome State Fault Refusal :=
  ldRegReg .e .d s

/-- `LD E,E`, 0x5B, R81. -/
def execLdEE (s : State) : Host.Outcome State Fault Refusal :=
  ldRegReg .e .e s

/-- `LD E,H`, 0x5C, R81. -/
def execLdEH (s : State) : Host.Outcome State Fault Refusal :=
  ldRegReg .e .h s

/-- `LD E,L`, 0x5D, R81. -/
def execLdEL (s : State) : Host.Outcome State Fault Refusal :=
  ldRegReg .e .l s

/-- `LD E,A`, 0x5F, R81. -/
def execLdEA (s : State) : Host.Outcome State Fault Refusal :=
  ldRegReg .e .a s

/-- `LD H,B`, 0x60, R81. -/
def execLdHB (s : State) : Host.Outcome State Fault Refusal :=
  ldRegReg .h .b s

/-- `LD H,C`, 0x61, R81. -/
def execLdHC (s : State) : Host.Outcome State Fault Refusal :=
  ldRegReg .h .c s

/-- `LD H,D`, 0x62, R81. -/
def execLdHD (s : State) : Host.Outcome State Fault Refusal :=
  ldRegReg .h .d s

/-- `LD H,E`, 0x63, R81. -/
def execLdHE (s : State) : Host.Outcome State Fault Refusal :=
  ldRegReg .h .e s

/-- `LD H,H`, 0x64, R81. -/
def execLdHH (s : State) : Host.Outcome State Fault Refusal :=
  ldRegReg .h .h s

/-- `LD H,L`, 0x65, R81. -/
def execLdHL (s : State) : Host.Outcome State Fault Refusal :=
  ldRegReg .h .l s

/-- `LD H,A`, 0x67, R81. -/
def execLdHA (s : State) : Host.Outcome State Fault Refusal :=
  ldRegReg .h .a s

/-- `LD L,B`, 0x68, R81. -/
def execLdLB (s : State) : Host.Outcome State Fault Refusal :=
  ldRegReg .l .b s

/-- `LD L,C`, 0x69, R81. -/
def execLdLC (s : State) : Host.Outcome State Fault Refusal :=
  ldRegReg .l .c s

/-- `LD L,D`, 0x6A, R81. -/
def execLdLD (s : State) : Host.Outcome State Fault Refusal :=
  ldRegReg .l .d s

/-- `LD L,E`, 0x6B, R81. -/
def execLdLE (s : State) : Host.Outcome State Fault Refusal :=
  ldRegReg .l .e s

/-- `LD L,H`, 0x6C, R81. -/
def execLdLH (s : State) : Host.Outcome State Fault Refusal :=
  ldRegReg .l .h s

/-- `LD L,L`, 0x6D, R81. -/
def execLdLL (s : State) : Host.Outcome State Fault Refusal :=
  ldRegReg .l .l s

/-- `LD L,A`, 0x6F, R81. -/
def execLdLA (s : State) : Host.Outcome State Fault Refusal :=
  ldRegReg .l .a s

/-- `LD A,B`, 0x78, R81. -/
def execLdAB (s : State) : Host.Outcome State Fault Refusal :=
  ldRegReg .a .b s

/-- `LD A,C`, 0x79, R81. -/
def execLdAC (s : State) : Host.Outcome State Fault Refusal :=
  ldRegReg .a .c s

/-- `LD A,D`, 0x7A, R81. -/
def execLdAD (s : State) : Host.Outcome State Fault Refusal :=
  ldRegReg .a .d s

/-- `LD A,E`, 0x7B, R81. -/
def execLdAE (s : State) : Host.Outcome State Fault Refusal :=
  ldRegReg .a .e s

/-- `LD A,H`, 0x7C, R81. -/
def execLdAH (s : State) : Host.Outcome State Fault Refusal :=
  ldRegReg .a .h s

/-- `LD A,L`, 0x7D, R81. -/
def execLdAL (s : State) : Host.Outcome State Fault Refusal :=
  ldRegReg .a .l s

/-- `LD A,A`, 0x7F, R81. -/
def execLdAA (s : State) : Host.Outcome State Fault Refusal :=
  ldRegReg .a .a s

/-- `LD B,(HL)`, 0x46, R82. -/
def execLdBAtHl (s : State) : Host.Outcome State Fault Refusal :=
  ldRegAtHl .b s

/-- `LD C,(HL)`, 0x4E, R82. -/
def execLdCAtHl (s : State) : Host.Outcome State Fault Refusal :=
  ldRegAtHl .c s

/-- `LD D,(HL)`, 0x56, R82. -/
def execLdDAtHl (s : State) : Host.Outcome State Fault Refusal :=
  ldRegAtHl .d s

/-- `LD E,(HL)`, 0x5E, R82. -/
def execLdEAtHl (s : State) : Host.Outcome State Fault Refusal :=
  ldRegAtHl .e s

/-- `LD H,(HL)`, 0x66, R82. -/
def execLdHAtHl (s : State) : Host.Outcome State Fault Refusal :=
  ldRegAtHl .h s

/-- `LD L,(HL)`, 0x6E, R82. -/
def execLdLAtHl (s : State) : Host.Outcome State Fault Refusal :=
  ldRegAtHl .l s

/-- `LD A,(HL)`, 0x7E, R82. -/
def execLdAAtHl (s : State) : Host.Outcome State Fault Refusal :=
  ldRegAtHl .a s

/-- `LD (HL),B`, 0x70, R83. -/
def execLdAtHlB (s : State) : Host.Outcome State Fault Refusal :=
  ldAtHlReg 0x70 .b s

/-- `LD (HL),C`, 0x71, R83. -/
def execLdAtHlC (s : State) : Host.Outcome State Fault Refusal :=
  ldAtHlReg 0x71 .c s

/-- `LD (HL),D`, 0x72, R83. -/
def execLdAtHlD (s : State) : Host.Outcome State Fault Refusal :=
  ldAtHlReg 0x72 .d s

/-- `LD (HL),E`, 0x73, R83. -/
def execLdAtHlE (s : State) : Host.Outcome State Fault Refusal :=
  ldAtHlReg 0x73 .e s

/-- `LD (HL),H`, 0x74, R83. -/
def execLdAtHlH (s : State) : Host.Outcome State Fault Refusal :=
  ldAtHlReg 0x74 .h s

/-- `LD (HL),L`, 0x75, R83. -/
def execLdAtHlL (s : State) : Host.Outcome State Fault Refusal :=
  ldAtHlReg 0x75 .l s

/-- `LD (HL),A`, 0x77, R83. -/
def execLdAtHlA (s : State) : Host.Outcome State Fault Refusal :=
  ldAtHlReg 0x77 .a s

/-- `LD B,n8`, 0x06, R84. -/
def execLdBN8 (n8 : Byte) (s : State) : Host.Outcome State Fault Refusal :=
  ldCodeN8 0x06 (.reg .b) n8 s

/-- `LD C,n8`, 0x0E, R84. -/
def execLdCN8 (n8 : Byte) (s : State) : Host.Outcome State Fault Refusal :=
  ldCodeN8 0x0E (.reg .c) n8 s

/-- `LD D,n8`, 0x16, R84. -/
def execLdDN8 (n8 : Byte) (s : State) : Host.Outcome State Fault Refusal :=
  ldCodeN8 0x16 (.reg .d) n8 s

/-- `LD E,n8`, 0x1E, R84. -/
def execLdEN8 (n8 : Byte) (s : State) : Host.Outcome State Fault Refusal :=
  ldCodeN8 0x1E (.reg .e) n8 s

/-- `LD H,n8`, 0x26, R84. -/
def execLdHN8 (n8 : Byte) (s : State) : Host.Outcome State Fault Refusal :=
  ldCodeN8 0x26 (.reg .h) n8 s

/-- `LD L,n8`, 0x2E, R84. -/
def execLdLN8 (n8 : Byte) (s : State) : Host.Outcome State Fault Refusal :=
  ldCodeN8 0x2E (.reg .l) n8 s

/-- `LD A,n8`, 0x3E, R84. -/
def execLdAN8 (n8 : Byte) (s : State) : Host.Outcome State Fault Refusal :=
  ldCodeN8 0x3E (.reg .a) n8 s

/-- `LD (HL),n8`, 0x36, R84. Always faults (log 10). -/
def execLdAtHlN8 (n8 : Byte) (s : State) : Host.Outcome State Fault Refusal :=
  ldCodeN8 0x36 .atHl n8 s

/-- `LD BC,n16`, 0x01, R85. -/
def execLdBcN16 (n16 : Addr) (s : State) : Host.Outcome State Fault Refusal :=
  ldPairN16 .bc n16 s

/-- `LD DE,n16`, 0x11, R85. -/
def execLdDeN16 (n16 : Addr) (s : State) : Host.Outcome State Fault Refusal :=
  ldPairN16 .de n16 s

/-- `LD HL,n16`, 0x21, R85. -/
def execLdHlN16 (n16 : Addr) (s : State) : Host.Outcome State Fault Refusal :=
  ldPairN16 .hl n16 s

/-- `LD SP,n16`, 0x31, R85. -/
def execLdSpN16 (n16 : Addr) (s : State) : Host.Outcome State Fault Refusal :=
  ldPairN16 .sp n16 s

/-- `LD (HL+),A`, 0x22, R87. -/
def execLdAtHlIncA (s : State) : Host.Outcome State Fault Refusal :=
  ldAtHlStepA 0x22 .inc s

/-- `LD (HL-),A`, 0x32, R88. -/
def execLdAtHlDecA (s : State) : Host.Outcome State Fault Refusal :=
  ldAtHlStepA 0x32 .dec s

/-- `LD A,(HL+)`, 0x2A, R89. -/
def execLdAAtHlInc (s : State) : Host.Outcome State Fault Refusal :=
  ldAAtHlStep .inc s

/-- `LD A,(HL-)`, 0x3A, R90. -/
def execLdAAtHlDec (s : State) : Host.Outcome State Fault Refusal :=
  ldAAtHlStep .dec s

/-- `LD (n16),A`, 0xEA, R91. -/
def execLdAtN16A (n16 : Addr) (s : State) : Host.Outcome State Fault Refusal :=
  storeA 0xEA n16 3#16 16 s

/-- `LDH (n8),A`, 0xE0, R92. -/
def execLdhAtN8A (n8 : Byte) (s : State) : Host.Outcome State Fault Refusal :=
  storeA 0xE0 (highPage n8) 2#16 12 s

/-- `LDH A,(n8)`, 0xF0, R93. -/
def execLdhAAtN8 (n8 : Byte) (s : State) : Host.Outcome State Fault Refusal :=
  loadA (highPage n8) 2#16 12 s

/-- `LD (C),A`, 0xE2, R95. `pc` advances by 2 (R94, log 18). -/
def execLdAtCA (s : State) : Host.Outcome State Fault Refusal :=
  storeA 0xE2 (highPage s.regs.c) 2#16 8 s

/-- `LD A,(C)`, 0xF2, R96. `pc` advances by 2 (R94, log 18). -/
def execLdAAtC (s : State) : Host.Outcome State Fault Refusal :=
  loadA (highPage s.regs.c) 2#16 8 s

end Sys2Proof.Machine
end

