-- ==== Sys2Proof/Machine/Fetch.lean ====
section
/-! DEFINITION. Fetch and decode of one instruction (spec/40_dispatch_and_misc.md R66, R67). -/

namespace Sys2Proof.Machine

/-- The opcode byte: `MemRead(pc, 1)` (R66). -/
def State.fetchedOpcode (s : State) : Byte := s.memRead s.pc

/-- Does the instruction's last operand byte lie within the address space (R67, log 3)? An integer comparison: operand fetch does not wrap. -/
def State.operandsRemain (s : State) : Bool :=
  decide (s.pc.toNat + operandBytes s.fetchedOpcode ≤ 0xFFFF)

/-- The opcode byte and its operand bytes, as fetched (R66): `MemRead` at `pc`, `pc + 1`, `pc + 2`, as many as R57 says. -/
def State.fetchedBytes (s : State) : List Byte :=
  s.fetchedOpcode :: (List.range (operandBytes s.fetchedOpcode)).map fun j => s.memRead (s.pc + 1#16 + BitVec.ofNat 16 j)

/-- The instruction at `pc`, or the fault its fetch raises: `TruncatedInstruction`, before any other (R67, spec/60_exceptions.md R133, log 5). -/
def State.fetch (s : State) : Except FaultKind Instr :=
  if s.operandsRemain then
    match decode s.fetchedBytes with
    | .ok (i, _) => .ok i
    | .error _ => .error .truncatedInstruction
  else .error .truncatedInstruction

end Sys2Proof.Machine
end

