-- ==== Sys2Proof/Machine/Loader.lean ====
section
/-! DEFINITION. How a program comes into memory: the external loader (spec/70_reset_and_hazards.md R151, R152), and placing single bytes
where instruction fetch reads them. Log 9, log 26. -/

namespace Sys2Proof.Machine

/-- Copy bytes into an array from an index on, up to the top of the address space. The loader writes `mem` directly, so write protection does
not bind it (R151). -/
def Memory.load : Memory → Nat → List Byte → Memory
  | m, _, [] => m
  | m, a, v :: vs => if a < Config.memSize then Memory.load (m.write a v) (a + 1) vs else m

/-- The recommended loader (R152): image byte `i` goes to `mem[i]`, for `i < min(length, 0x10000)`. -/
def State.resetWithImage (image : List Byte) : State := State.resetWith (Memory.load [] 0 image)

/-- Put one byte where `MemRead` of that address finds it, whatever the region. No action of the core. -/
def State.placeByte (s : State) (a : Addr) (v : Byte) : State :=
  if inWindow a then { s with io := s.io.write (ioIndex a) v }
  else { s with mem := s.mem.write a.toNat v }

/-- Put bytes at rising addresses, up to the top of the address space. -/
def State.placeBytes : State → Nat → List Byte → State
  | s, _, [] => s
  | s, a, v :: vs =>
    if a < Config.memSize then State.placeBytes (s.placeByte (BitVec.ofNat 16 a) v) (a + 1) vs else s

end Sys2Proof.Machine
end

