-- ==== Sys2Proof/Machine/Step.lean ====
section
/-! DEFINITION. One cycle of the fetch-decode-dispatch loop (spec/40_dispatch_and_misc.md R65, R71). -/

namespace Sys2Proof.Machine

/-- `Step()` (R71): a faulted core takes no step (R23, R65). A running one fetches, decodes and executes, and a fetch that faults is a
faulting cycle like any other (R135). -/
def step (s : State) : Host.Outcome State Fault Refusal :=
  match s.run with
  | .faulted k pc opcode => .fault (.stopped k pc opcode)
  | .running =>
    match s.fetch with
    | .ok i => exec i s
    | .error k => raise k s.fetchedOpcode s

/-- The state with a table word's bytes placed at `pc`, where the next fetch reads them, on a running core. It stands for the external load
(log 9, log 26). -/
def State.withFetchWord (s : State) (nbits w : Nat) : State :=
  { s with run := .running }.placeBytes s.pc.toNat (tableBytes nbits w)

end Sys2Proof.Machine
end

