-- ==== Sys2Proof/Machine/Outputs.lean ====
section
/-! DEFINITION. What an outside observer can see of a cycle beside the state: its memory accesses in order (spec/20_memory.md R31), the I/O-window
events among them (spec/60_exceptions.md R147) and the trace record (R146). Outputs, not state: nothing in the core reads them. Log 23. -/

namespace Sys2Proof.Machine

/-- One `MemRead(addr, 1)` or `MemWrite(addr, 1, v)` with the byte that passed. -/
inductive Access where
  | read (addr : Addr) (value : Byte)
  | write (addr : Addr) (value : Byte)
deriving DecidableEq, Repr

/-- The address of an access. -/
def Access.addr : Access → Addr
  | .read a _ => a
  | .write a _ => a

/-- The address of a write. -/
def Access.writtenAddr : Access → Option Addr
  | .read _ _ => none
  | .write a _ => some a

/-- A read as it happens in a state. -/
def State.readAccess (s : State) (a : Addr) : Access := .read a (s.memRead a)

/-- The accesses of an instruction beyond its fetch, in order, by R31's table, for a cycle that completes. -/
def formAccesses (f : Form) (s : State) : List Access :=
  match f with
  | .ldRegAtHl _ => [s.readAccess s.hl]
  | .ldAtHlReg r => [.write s.hl (s.getReg r)]
  | .ldAtHlStepA _ => [.write s.hl s.regs.a]
  | .ldAAtHlStep _ => [s.readAccess s.hl]
  | .ldAtN16A n16 => [.write n16 s.regs.a]
  | .ldhAtN8A n8 => [.write (highPage n8) s.regs.a]
  | .ldhAAtN8 n8 => [s.readAccess (highPage n8)]
  | .ldAtCA => [.write (highPage s.regs.c) s.regs.a]
  | .ldAAtC => [s.readAccess (highPage s.regs.c)]
  | .alu _ .atHl => [s.readAccess s.hl]
  | .alu _ (.reg _) => []
  | .callN16 _ => [.write (s.sp - 1#16) (lo8 (s.pc + 3#16)), .write (s.sp - 2#16) (hi8 (s.pc + 3#16))]
  | .retNc => if condHolds s.flags .noCarry then [s.readAccess s.sp, s.readAccess (s.sp + 1#16)] else []
  | .nop | .halt | .di | .ldRegReg _ _ | .ldRegN8 _ _ | .ldAtHlN8 _ | .ldPairN16 _ _ => []
  | .decReg _ | .decAtHl | .jpN16 _ | .jpNzR8 _ | .unimplemented _ => []

/-- The addresses an instruction stores to, in order: none for a form that stores nothing. -/
def storedAddrs (i : Instr) (s : State) : List Addr :=
  (formAccesses i.form s).filterMap Access.writtenAddr

/-- The reads of the fetch, in order (R31 first row, R66). -/
def State.fetchAccesses (s : State) : List Access :=
  s.readAccess s.pc ::
    (List.range (operandBytes s.fetchedOpcode)).map fun j => s.readAccess (s.pc + 1#16 + BitVec.ofNat 16 j)

/-- Every access of the cycle taken from this state, in order. A cycle whose operands do not all remain reads the opcode only (R67), a cycle
whose execution faults has fetched and writes nothing (R135), and a faulted core makes no access. -/
def State.cycleAccesses (s : State) : List Access :=
  match s.run with
  | .faulted _ _ _ => []
  | .running =>
    match s.fetch with
    | .error _ => [s.readAccess s.pc]
    | .ok i =>
      match exec i s with
      | .next t => if t.run = .running then s.fetchAccesses ++ formAccesses i.form s else s.fetchAccesses
      | .fault _ => s.fetchAccesses
      | .refused _ => s.fetchAccesses

/-- `IoRead` and `IoWrite` (R147): the accesses of the cycle that lie in the I/O window, in program order. -/
def State.ioEvents (s : State) : List Access :=
  s.cycleAccesses.filter fun x => inWindow x.addr

/-- The trace record (R146): program-counter value at fetch time, opcode byte, mnemonic string. -/
structure TraceRecord where
  pc : Addr
  opcode : Byte
  mnemonic : String
deriving DecidableEq, Repr

/-- The record emitted by the cycle taken from this state: one for a cycle that completes, none for one that faults (R146, log 23). -/
def State.traceRecord (s : State) : Option TraceRecord :=
  match step s with
  | .next t =>
    if t.run = .running then
      some { pc := s.pc, opcode := s.fetchedOpcode, mnemonic := Config.traceMnemonic s.fetchedOpcode }
    else none
  | .fault _ => none
  | .refused _ => none

end Sys2Proof.Machine
end

