-- ==== Sys2Proof/Safety.lean ====
section
/-! DEFINITION. The terms claims are stated in: the invariant of the machine, what a safe cycle is, and the tables of the spec that say which
instruction may change or raise what. -/

namespace Sys2Proof.Machine

/-! ## The invariant -/

/-- Both arrays are in canonical form. -/
def State.wf (s : State) : Bool :=
  Memory.wf Config.memSize s.mem && Memory.wf Config.ioSize s.io

/-- Which faults an opcode at an address can raise: the table of spec/60_exceptions.md R132 with the priority of R133. -/
def mayRaise (k : FaultKind) (pc : Addr) (op : Byte) : Bool :=
  match k with
  | .haltEncountered => decide (op = 0x76)
  | .unimplementedOpcode => isUnimplemented op
  | .invalidRegisterAccess => decide (op = 0x35) || (decide (op = 0x36) && decide (pc ≠ 0xFFFF))
  | .truncatedInstruction =>
    (decide (op ∈ ([0x06, 0x0E, 0x16, 0x1E, 0x26, 0x2E, 0x36, 0x3E, 0x20, 0xE0, 0xF0] : List Byte)) && decide (pc = 0xFFFF)) ||
      (decide (op ∈ ([0x01, 0x11, 0x21, 0x31, 0xC3, 0xEA, 0xCD] : List Byte)) && decide (0xFFFE ≤ pc.toNat))
  | .readOnlyViolation =>
    decide (op ∈ ([0x70, 0x71, 0x72, 0x73, 0x74, 0x75, 0x77, 0x22, 0x32] : List Byte)) ||
      (decide (op ∈ ([0xEA, 0xCD] : List Byte)) && decide (pc.toNat < 0xFFFE))

/-- A fault record names the instruction it is attributed to (R134, R135): its `pc` is the state's `pc`, its opcode is the byte there, and
the opcode is one that can raise the kind (R132). -/
def State.runConsistent (s : State) : Bool :=
  match s.run with
  | .running => true
  | .faulted k pc op => decide (pc = s.pc) && decide (op = s.fetchedOpcode) && mayRaise k pc op

/-- What every reachable state satisfies. -/
def State.Inv (s : State) : Prop := s.wf = true ∧ s.runConsistent = true

/-! ## Safe cycles -/

/-- The core takes a cycle from this state and it completes. -/
def State.stepsSafely (s : State) : Prop :=
  ∃ t : State, step s = .next t ∧ t.run = .running

/-- The run has ended with this record. A faulted state counts as a successful end only where a claim names the fault it expects
(R137, log 31). -/
def State.endedWith (s : State) (k : FaultKind) (pc : Addr) (op : Byte) : Prop :=
  s.run = .faulted k pc op

/-! ## What an instruction may change or raise -/

/-- The registers a completing instruction writes (spec/10_state.md, table after R15). -/
def writtenRegs : Form → List Reg
  | .ldRegReg dst _ => [dst]
  | .ldRegAtHl dst => [dst]
  | .ldRegN8 dst _ => [dst]
  | .ldPairN16 .bc _ => [.b, .c]
  | .ldPairN16 .de _ => [.d, .e]
  | .ldPairN16 .hl _ => [.h, .l]
  | .ldPairN16 .sp _ => []
  | .ldAtHlStepA _ => [.h, .l]
  | .ldAAtHlStep _ => [.a, .h, .l]
  | .ldhAAtN8 _ => [.a]
  | .ldAAtC => [.a]
  | .alu _ _ => [.a]
  | .decReg r => [r]
  | .nop | .halt | .di | .ldAtHlReg _ | .ldAtHlN8 _ | .ldAtN16A _ | .ldhAtN8A _ | .ldAtCA => []
  | .decAtHl | .jpN16 _ | .callN16 _ | .jpNzR8 _ | .retNc | .unimplemented _ => []

/-- Does a completing instruction write `sp` (R17)? -/
def writesSp (f : Form) (s : State) : Bool :=
  match f with
  | .ldPairN16 .sp _ => true
  | .callN16 _ => true
  | .retNc => condHolds s.flags .noCarry
  | .ldPairN16 .bc _ | .ldPairN16 .de _ | .ldPairN16 .hl _ => false
  | .nop | .halt | .di | .ldRegReg _ _ | .ldRegAtHl _ | .ldAtHlReg _ | .ldRegN8 _ _ | .ldAtHlN8 _ | .ldAtHlStepA _ => false
  | .ldAAtHlStep _ | .ldAtN16A _ | .ldhAtN8A _ | .ldhAAtN8 _ | .ldAtCA | .ldAAtC | .alu _ _ | .decReg _ | .decAtHl => false
  | .jpN16 _ | .jpNzR8 _ | .unimplemented _ => false

/-- The cost of a completing instruction (spec/70_reset_and_hazards.md R158). The instructions that always fault have none. -/
def formCost (f : Form) (s : State) : Nat :=
  match f with
  | .nop | .di => 4
  | .ldRegReg _ _ => 4
  | .ldRegAtHl _ | .ldAtHlReg _ | .ldRegN8 _ _ => 8
  | .ldPairN16 _ _ => 12
  | .ldAtHlStepA _ | .ldAAtHlStep _ => 8
  | .ldAtN16A _ => 16
  | .ldhAtN8A _ | .ldhAAtN8 _ => 12
  | .ldAtCA | .ldAAtC => 8
  | .alu _ (.reg _) => 4
  | .alu _ .atHl => 8
  | .decReg _ => 4
  | .jpN16 _ => 16
  | .callN16 _ => 24
  | .jpNzR8 _ => if s.flags.z then 8 else 12
  | .retNc => if s.flags.c then 8 else 20
  | .halt | .ldAtHlN8 _ | .decAtHl | .unimplemented _ => 0

/-- The fault executing an instruction raises in a state, if any: the rows of R132 that a fetched instruction can still raise. -/
def raisesIn (i : Instr) (s : State) : Option FaultKind :=
  match i.form with
  | .halt => some .haltEncountered
  | .decAtHl => some .invalidRegisterAccess
  | .ldAtHlN8 _ => some .invalidRegisterAccess
  | .unimplemented _ => some .unimplementedOpcode
  | .nop | .di | .ldRegReg _ _ | .ldRegAtHl _ | .ldAtHlReg _ | .ldRegN8 _ _ | .ldPairN16 _ _ | .ldAtHlStepA _ | .ldAAtHlStep _
  | .ldAtN16A _ | .ldhAtN8A _ | .ldhAAtN8 _ | .ldAtCA | .ldAAtC | .alu _ _ | .decReg _ | .jpN16 _ | .callN16 _ | .jpNzR8 _ | .retNc =>
    if (storedAddrs i s).any isProtected then some .readOnlyViolation else none

/-! ## What a store leaves -/

/-- From `s` to `t` the one byte at `a` has become `v`: `MemRead` gives `v` there and what it gave before everywhere else, and the array that
does not back `a` is untouched (spec/20_memory.md R33, R36). -/
def StoredAt (s t : State) (a : Addr) (v : Byte) : Prop :=
  (∀ b : Addr, t.memRead b = if b = a then v else s.memRead b) ∧
    (inWindow a = true → t.mem = s.mem) ∧ (inWindow a = false → t.io = s.io)

/-! ## Agreement of two states -/

/-- The two states differ at most in the bytes of `mem` under the I/O window. -/
def AgreeOffShadow (s t : State) : Prop :=
  s.regs = t.regs ∧ s.flags = t.flags ∧ s.pc = t.pc ∧ s.sp = t.sp ∧ s.ticks = t.ticks ∧ s.io = t.io ∧ s.run = t.run ∧
    ∀ a : Addr, inWindow a = false → s.mem.read a.toNat = t.mem.read a.toNat

/-- The two states differ at most in `F.n` and `F.h`. -/
def AgreeOffNH (s t : State) : Prop :=
  s.regs = t.regs ∧ s.flags.z = t.flags.z ∧ s.flags.c = t.flags.c ∧ s.pc = t.pc ∧ s.sp = t.sp ∧ s.ticks = t.ticks ∧ s.mem = t.mem ∧
    s.io = t.io ∧ s.run = t.run

end Sys2Proof.Machine
end

