-- ==== Sys2Proof/Certificates/Slice0/Obligations.lean ====
section
/-! DEFINITION. The statements for the provers. "D<n>" is a decision the spec marks as its own (spec/92_eei_decisions.md), "log n" is
notes/assumptions/n.md. `Form.instr` (Sys2Proof/Syntax.lean) lists which constructors of `Instr` a form with register arguments stands for. -/

open Sys2Proof Sys2Proof.Machine

/-! ## Reset and loading -/

/-- What reset leaves (R27): every register of R10's list. The zeros of `io` and `ticks` are the spec's decisions D10 and D11 (log 7, 8), and that
`INIT_MEM` is a parameter is D12 (log 9): here it is the argument `init`. -/
def Obligations.ResetLeavesTheListedValues : Prop :=
  State.reset = State.resetWith [] ∧
    ∀ init : Memory, (State.resetWith init).pc = 0x0100#16 ∧ (State.resetWith init).sp = 0xFFF3#16 ∧
      (∀ r : Reg, (State.resetWith init).getReg r = 0) ∧
      (State.resetWith init).flags.z = false ∧ (State.resetWith init).flags.n = false ∧
      (State.resetWith init).flags.h = false ∧ (State.resetWith init).flags.c = false ∧
      (State.resetWith init).ticks = 0 ∧ (State.resetWith init).run = .running ∧
      (∀ j : Nat, (State.resetWith init).io.read j = 0) ∧
      (∀ a : Nat, (State.resetWith init).mem.read a = init.read a) ∧ (∀ a : Nat, State.reset.mem.read a = 0)

/-- The recommended loader (R152, decision D12, log 9): image byte `i` goes to `mem[i]` for `i < min(length, 0x10000)` and every other byte is 0. The
third clause, that the array is in canonical form, is no rule of the spec: that form is this model's DESIGN CHOICE of representation (log 22). -/
def Obligations.LoaderCopiesTheImage : Prop :=
  ∀ image : List Byte,
    (∀ i : Nat, i < 0x10000 → ∀ v : Byte, image[i]? = some v → (State.resetWithImage image).mem.read i = v) ∧
      (∀ i : Nat, image[i]? = none → (State.resetWithImage image).mem.read i = 0) ∧
      Memory.wf 0x10000 (State.resetWithImage image).mem = true

/-! ## Registers and memory -/

/-- The register file by code (R13): code 6 fails both ways, any other code reads the register R12 gives it, and a write replaces that register and
changes no other register and no flag (nor anything else). -/
def Obligations.RegisterAccessByCode : Prop :=
  ∀ (s : State) (c : Code),
    (c = 6 → s.getCode (operandOfCode c) = .error .invalidRegisterAccess ∧
      ∀ v : Byte, s.setCode (operandOfCode c) v = .error .invalidRegisterAccess) ∧
    (c ≠ 6 → ∃ r : Reg, operandOfCode c = .reg r ∧ r.code = c ∧ s.getCode (operandOfCode c) = .ok (s.getReg r) ∧
      ∀ v : Byte, ∃ t : State, s.setCode (operandOfCode c) v = .ok t ∧ t.getReg r = v ∧
        (∀ q : Reg, q ≠ r → t.getReg q = s.getReg q) ∧ t.flags = s.flags ∧ t.pc = s.pc ∧ t.sp = s.sp ∧ t.ticks = s.ticks ∧
        t.mem = s.mem ∧ t.io = s.io ∧ t.run = s.run)

/-- The composed pointer (R14): `HL` is `H * 256 + L`, a write of `HL` splits back and touches no other register, and a write of `H` or `L` alone
changes that half of `HL`. -/
def Obligations.HlIsComposedOfHAndL : Prop :=
  ∀ (s : State) (v : Addr) (x : Byte),
    s.hl.toNat = (s.getReg .h).toNat * 256 + (s.getReg .l).toNat ∧
      (s.setHl v).hl = v ∧ ((s.setHl v).getReg .h).toNat = v.toNat / 256 ∧ ((s.setHl v).getReg .l).toNat = v.toNat % 256 ∧
      (∀ q : Reg, q ≠ .h → q ≠ .l → (s.setHl v).getReg q = s.getReg q) ∧
      (s.setReg .h x).hl.toNat = x.toNat * 256 + (s.getReg .l).toNat ∧
      (s.setReg .l x).hl.toNat = (s.getReg .h).toNat * 256 + x.toNat

/-- `MemRead` (R32): the I/O window reads `io`, every other address reads `mem`. The index `addr - 0xFF00` is decision D15 (log 12). -/
def Obligations.MemReadFollowsTheAddressMap : Prop :=
  ∀ (s : State) (a : Addr),
    (0xFF00 ≤ a.toNat → a.toNat ≤ 0xFF7F → ∀ j : Nat, j + 0xFF00 = a.toNat → s.memRead a = s.io.read j) ∧
      (a.toNat < 0xFF00 ∨ 0xFF7F < a.toNat → s.memRead a = s.mem.read a.toNat)

/-- `MemWrite` (R33, R35, R36): 0x0100 to 0x7FFF fails with `ReadOnlyViolation`, any other write succeeds, changes the one byte of `io` (in the window)
or of `mem` (elsewhere, the low page included: decision D24, log 16) and changes nothing else. -/
def Obligations.MemWriteFollowsTheAddressMap : Prop :=
  ∀ (s : State) (a : Addr) (v : Byte),
    (0x0100 ≤ a.toNat → a.toNat ≤ 0x7FFF → s.memWrite a v = .error .readOnlyViolation) ∧
      (a.toNat < 0x0100 ∨ 0x7FFF < a.toNat → ∃ t : State, s.memWrite a v = .ok t ∧ StoredAt s t a v ∧
        (a.toNat < 0xFF00 ∨ 0xFF7F < a.toNat → ∀ j : Nat, t.mem.read j = if j = a.toNat then v else s.mem.read j) ∧
        t.regs = s.regs ∧ t.flags = s.flags ∧ t.pc = s.pc ∧ t.sp = s.sp ∧ t.ticks = s.ticks ∧ t.run = s.run)

/-- Pop after push (R38, R39; the source's property X1): for every `sp` at which the push does not fault, the pop returns the value pushed and restores
`sp`. Where one of the two bytes is protected the push fails (R40). The wrap of `sp` is decision D4 (log 1), that the stack follows the region rules D5
(log 2). -/
def Obligations.PopInvertsPush : Prop :=
  ∀ (s : State) (v : Addr),
    (isProtected (s.sp - 1#16) = true ∨ isProtected (s.sp - 2#16) = true → s.push16 v = .error .readOnlyViolation) ∧
      (isProtected (s.sp - 1#16) = false → isProtected (s.sp - 2#16) = false →
        ∃ t : State, s.push16 v = .ok t ∧ t.sp = s.sp - 2#16 ∧ t.memRead (s.sp - 2#16) = hi8 v ∧ t.memRead (s.sp - 1#16) = lo8 v ∧
          (∀ b : Addr, b ≠ s.sp - 1#16 → b ≠ s.sp - 2#16 → t.memRead b = s.memRead b) ∧
          t.pop16 = (v, { t with sp := s.sp }))

/-! ## The loop's instructions -/

/-- `NOP` (R72), `nop`. -/
def Obligations.NopOnlyAdvances : Prop :=
  encode .nop = [0x00] ∧
    ∀ s : State, exec .nop s = .next { s with pc := s.pc + 1#16, ticks := s.ticks + 4 }

/-- `HALT` (R73), `halt`: always faults, at every `pc`, changes nothing but `run`, and nothing resumes the core. -/
def Obligations.HaltAlwaysFaults : Prop :=
  encode .halt = [0x76] ∧
    (∀ s : State, exec .halt s = .next { s with run := .faulted .haltEncountered s.pc 0x76 }) ∧
    (∀ s : State, s.run = .running → s.memRead s.pc = 0x76 →
      step s = .next { s with run := .faulted .haltEncountered s.pc 0x76 } ∧
        ∀ t : State, step { s with run := .faulted .haltEncountered s.pc 0x76 } ≠ .next t)

/-- `DI` (R74), `di`: the effect of `NOP`. That it touches no flag and no other state is the spec's decision D21 (log 13). -/
def Obligations.DiOnlyAdvances : Prop :=
  encode .di = [0xF3] ∧
    ∀ s : State, exec .di s = .next { s with pc := s.pc + 1#16, ticks := s.ticks + 4 }

/-- An unimplemented byte (R70), `unimplemented op` for the 125 values of R60: nothing but the opcode is read, and the cycle faults with that byte in
the record and changes no state. -/
def Obligations.UnimplementedBytesAlwaysFault : Prop :=
  ∀ op : Byte, isUnimplemented op = true →
    (∀ rest : List Byte, decode (op :: rest) = .ok (.unimplemented op, rest)) ∧
      (∀ s : State, exec (.unimplemented op) s = .next { s with run := .faulted .unimplementedOpcode s.pc op }) ∧
      ∀ s : State, s.run = .running → s.memRead s.pc = op →
        step s = .next { s with run := .faulted .unimplementedOpcode s.pc op }

/-! ## The register transfer unit -/

/-- `LD r,r'` (R81), the 49 constructors of `Form.ldRegReg`. -/
def Obligations.LoadRegisterFromRegister : Prop :=
  ∀ dst src : Reg,
    encode (Form.ldRegReg dst src).instr = [BitVec.ofNat 8 (0x40 + 8 * dst.code.toNat + src.code.toNat)] ∧
      ∀ s : State, ∃ t : State, exec (Form.ldRegReg dst src).instr s = .next t ∧
        t.getReg dst = s.getReg src ∧ (∀ q : Reg, q ≠ dst → t.getReg q = s.getReg q) ∧
        t.pc = s.pc + 1#16 ∧ t.ticks = s.ticks + 4 ∧
        t.flags = s.flags ∧ t.sp = s.sp ∧ t.mem = s.mem ∧ t.io = s.io ∧ t.run = s.run

/-- `LD r,(HL)` (R82), the 7 constructors of `Form.ldRegAtHl`: the address is `HL` before the load. For `LD H,(HL)` and `LD L,(HL)` this order is the
spec's decision D22, which it infers (log 14). -/
def Obligations.LoadRegisterFromHl : Prop :=
  ∀ dst : Reg,
    encode (Form.ldRegAtHl dst).instr = [BitVec.ofNat 8 (0x46 + 8 * dst.code.toNat)] ∧
      ∀ s : State, ∃ t : State, exec (Form.ldRegAtHl dst).instr s = .next t ∧
        t.getReg dst = s.memRead s.hl ∧ (∀ q : Reg, q ≠ dst → t.getReg q = s.getReg q) ∧
        t.pc = s.pc + 1#16 ∧ t.ticks = s.ticks + 8 ∧
        t.flags = s.flags ∧ t.sp = s.sp ∧ t.mem = s.mem ∧ t.io = s.io ∧ t.run = s.run

/-- `LD (HL),r` (R83), the 7 constructors of `Form.ldAtHlReg`: the store at `HL`, or `ReadOnlyViolation` with no other change when `HL` is in 0x0100 to
0x7FFF. -/
def Obligations.StoreRegisterAtHl : Prop :=
  ∀ src : Reg,
    encode (Form.ldAtHlReg src).instr = [BitVec.ofNat 8 (0x70 + src.code.toNat)] ∧
      (∀ s : State, 0x0100 ≤ s.hl.toNat → s.hl.toNat ≤ 0x7FFF →
        exec (Form.ldAtHlReg src).instr s =
          .next { s with run := .faulted .readOnlyViolation s.pc (BitVec.ofNat 8 (0x70 + src.code.toNat)) }) ∧
      (∀ s : State, s.hl.toNat < 0x0100 ∨ 0x7FFF < s.hl.toNat →
        ∃ t : State, exec (Form.ldAtHlReg src).instr s = .next t ∧ StoredAt s t s.hl (s.getReg src) ∧
          t.pc = s.pc + 1#16 ∧ t.ticks = s.ticks + 8 ∧ t.regs = s.regs ∧ t.flags = s.flags ∧ t.sp = s.sp ∧ t.run = s.run)

/-- `LD r,n8` (R84), the 7 constructors of `Form.ldRegN8`, for every `n8`. (0x36, which the spec's decision D13 makes fault, is in
`CodeSixFormsAlwaysFault`, and truncation is in `TruncationIsExactlyTheShortFetch`.) -/
def Obligations.LoadRegisterImmediate : Prop :=
  ∀ (dst : Reg) (n8 : Byte),
    encode (Form.ldRegN8 dst n8).instr = [BitVec.ofNat 8 (0x06 + 8 * dst.code.toNat), n8] ∧
      ∀ s : State, ∃ t : State, exec (Form.ldRegN8 dst n8).instr s = .next t ∧
        t.getReg dst = n8 ∧ (∀ q : Reg, q ≠ dst → t.getReg q = s.getReg q) ∧
        t.pc = s.pc + 2#16 ∧ t.ticks = s.ticks + 8 ∧
        t.flags = s.flags ∧ t.sp = s.sp ∧ t.mem = s.mem ∧ t.io = s.io ∧ t.run = s.run

/-- The two listed opcodes with register code 6 where it is unsupported, `ldAtHlN8` (0x36, R84) and `decAtHl` (0x35, R108), always fault, with no other
change. That the kind is `InvalidRegisterAccess` is the spec's decision D13 (log 10). -/
def Obligations.CodeSixFormsAlwaysFault : Prop :=
  encode .decAtHl = [0x35] ∧ (∀ n8 : Byte, encode (.ldAtHlN8 n8) = [0x36, n8]) ∧
    (∀ s : State, exec .decAtHl s = .next { s with run := .faulted .invalidRegisterAccess s.pc 0x35 }) ∧
    (∀ (n8 : Byte) (s : State), exec (.ldAtHlN8 n8) s = .next { s with run := .faulted .invalidRegisterAccess s.pc 0x36 })

/-- `LD rr,n16` (R85), `ldBcN16`, `ldDeN16`, `ldHlN16`, `ldSpN16`: the first-named register gets the high byte. Which opcode loads which pair is the
spec's decision D14 (log 11). -/
def Obligations.LoadPairImmediate : Prop :=
  ∀ (n16 : Addr) (hi lo : Byte), n16.toNat = hi.toNat * 256 + lo.toNat →
    encode (.ldBcN16 n16) = [0x01, lo, hi] ∧ encode (.ldDeN16 n16) = [0x11, lo, hi] ∧
    encode (.ldHlN16 n16) = [0x21, lo, hi] ∧ encode (.ldSpN16 n16) = [0x31, lo, hi] ∧
    ∀ s : State,
      exec (.ldBcN16 n16) s =
        .next { s with regs := { s.regs with b := hi, c := lo }, pc := s.pc + 3#16, ticks := s.ticks + 12 } ∧
      exec (.ldDeN16 n16) s =
        .next { s with regs := { s.regs with d := hi, e := lo }, pc := s.pc + 3#16, ticks := s.ticks + 12 } ∧
      exec (.ldHlN16 n16) s =
        .next { s with regs := { s.regs with h := hi, l := lo }, pc := s.pc + 3#16, ticks := s.ticks + 12 } ∧
      exec (.ldSpN16 n16) s = .next { s with sp := n16, pc := s.pc + 3#16, ticks := s.ticks + 12 }

/-- `LD (HL+),A` (R87) and `LD (HL-),A` (R88), `ldAtHlIncA` and `ldAtHlDecA`: the store uses `HL` before the adjustment, and a protected `HL` faults. That
`HL` is then not adjusted, and nothing but `run` changes, is the spec's decision D7 (R135, log 4). -/
def Obligations.StoreAThenStepHl : Prop :=
  encode .ldAtHlIncA = [0x22] ∧ encode .ldAtHlDecA = [0x32] ∧
    (∀ s : State, 0x0100 ≤ s.hl.toNat → s.hl.toNat ≤ 0x7FFF →
      exec .ldAtHlIncA s = .next { s with run := .faulted .readOnlyViolation s.pc 0x22 } ∧
      exec .ldAtHlDecA s = .next { s with run := .faulted .readOnlyViolation s.pc 0x32 }) ∧
    (∀ s : State, s.hl.toNat < 0x0100 ∨ 0x7FFF < s.hl.toNat →
      (∃ t : State, exec .ldAtHlIncA s = .next t ∧ StoredAt s t s.hl s.regs.a ∧ t.hl = s.hl + 1#16 ∧
        (∀ q : Reg, q ≠ .h → q ≠ .l → t.getReg q = s.getReg q) ∧
        t.pc = s.pc + 1#16 ∧ t.ticks = s.ticks + 8 ∧ t.flags = s.flags ∧ t.sp = s.sp ∧ t.run = s.run) ∧
      (∃ t : State, exec .ldAtHlDecA s = .next t ∧ StoredAt s t s.hl s.regs.a ∧ t.hl = s.hl - 1#16 ∧
        (∀ q : Reg, q ≠ .h → q ≠ .l → t.getReg q = s.getReg q) ∧
        t.pc = s.pc + 1#16 ∧ t.ticks = s.ticks + 8 ∧ t.flags = s.flags ∧ t.sp = s.sp ∧ t.run = s.run))

/-- `LD A,(HL+)` (R89) and `LD A,(HL-)` (R90), `ldAAtHlInc` and `ldAAtHlDec`. -/
def Obligations.LoadAThenStepHl : Prop :=
  encode .ldAAtHlInc = [0x2A] ∧ encode .ldAAtHlDec = [0x3A] ∧
    ∀ s : State,
      (∃ t : State, exec .ldAAtHlInc s = .next t ∧ t.getReg .a = s.memRead s.hl ∧ t.hl = s.hl + 1#16 ∧
        (∀ q : Reg, q ≠ .a → q ≠ .h → q ≠ .l → t.getReg q = s.getReg q) ∧ t.pc = s.pc + 1#16 ∧ t.ticks = s.ticks + 8 ∧
        t.flags = s.flags ∧ t.sp = s.sp ∧ t.mem = s.mem ∧ t.io = s.io ∧ t.run = s.run) ∧
      (∃ t : State, exec .ldAAtHlDec s = .next t ∧ t.getReg .a = s.memRead s.hl ∧ t.hl = s.hl - 1#16 ∧
        (∀ q : Reg, q ≠ .a → q ≠ .h → q ≠ .l → t.getReg q = s.getReg q) ∧ t.pc = s.pc + 1#16 ∧ t.ticks = s.ticks + 8 ∧
        t.flags = s.flags ∧ t.sp = s.sp ∧ t.mem = s.mem ∧ t.io = s.io ∧ t.run = s.run)

/-- `LD (n16),A` (R91), `ldAtN16A`, for every address. That nothing but `run` changes on the fault is the spec's decision D7 (R135, log 4). (Truncation,
decision D6, is in `TruncationIsExactlyTheShortFetch`.) -/
def Obligations.StoreAAbsolute : Prop :=
  ∀ n16 : Addr,
    encode (.ldAtN16A n16) = [0xEA, lo8 n16, hi8 n16] ∧
      (0x0100 ≤ n16.toNat → n16.toNat ≤ 0x7FFF → ∀ s : State,
        exec (.ldAtN16A n16) s = .next { s with run := .faulted .readOnlyViolation s.pc 0xEA }) ∧
      (n16.toNat < 0x0100 ∨ 0x7FFF < n16.toNat → ∀ s : State,
        ∃ t : State, exec (.ldAtN16A n16) s = .next t ∧ StoredAt s t n16 s.regs.a ∧
          t.pc = s.pc + 3#16 ∧ t.ticks = s.ticks + 16 ∧ t.regs = s.regs ∧ t.flags = s.flags ∧ t.sp = s.sp ∧ t.run = s.run)

/-- `LDH (n8),A` (R92) and `LDH A,(n8)` (R93), `ldhAtN8A` and `ldhAAtN8`: the address is `0xFF00 + n8`, and neither ever faults in execution. That the
offsets 0x80 to 0xFF reach plain `mem` is decision D26 (log 17). -/
def Obligations.HighPageImmediateStoreAndLoad : Prop :=
  ∀ (n8 : Byte) (a : Addr), a.toNat = 0xFF00 + n8.toNat →
    encode (.ldhAtN8A n8) = [0xE0, n8] ∧ encode (.ldhAAtN8 n8) = [0xF0, n8] ∧
    ∀ s : State,
      (∃ t : State, exec (.ldhAtN8A n8) s = .next t ∧ StoredAt s t a s.regs.a ∧
        t.pc = s.pc + 2#16 ∧ t.ticks = s.ticks + 12 ∧ t.regs = s.regs ∧ t.flags = s.flags ∧ t.sp = s.sp ∧ t.run = s.run) ∧
      exec (.ldhAAtN8 n8) s =
        .next { s with regs := { s.regs with a := s.memRead a }, pc := s.pc + 2#16, ticks := s.ticks + 12 }

/-- `LD (C),A` (R95), `ldAtCA`: one byte long, never faults, and advances `pc` by 2. -/
def Obligations.StoreAThroughC : Prop :=
  encode .ldAtCA = [0xE2] ∧
    ∀ (s : State) (a : Addr), a.toNat = 0xFF00 + (s.getReg .c).toNat →
      ∃ t : State, exec .ldAtCA s = .next t ∧ StoredAt s t a s.regs.a ∧
        t.pc = s.pc + 2#16 ∧ t.ticks = s.ticks + 8 ∧ t.regs = s.regs ∧ t.flags = s.flags ∧ t.sp = s.sp ∧ t.run = s.run

/-- `LD A,(C)` (R96), `ldAAtC`: one byte long, never faults, and advances `pc` by 2. -/
def Obligations.LoadAThroughC : Prop :=
  encode .ldAAtC = [0xF2] ∧
    ∀ (s : State) (a : Addr), a.toNat = 0xFF00 + (s.getReg .c).toNat →
      exec .ldAAtC s =
        .next { s with regs := { s.regs with a := s.memRead a }, pc := s.pc + 2#16, ticks := s.ticks + 8 }

/-! ## The arithmetic/logic unit -/

/-- `ADD A,r` and `ADD A,(HL)` (R101), the 8 constructors of `Form.alu .add`. -/
def Obligations.AddResultAndFlags : Prop :=
  (∀ o : Operand, encode (Form.alu .add o).instr = [BitVec.ofNat 8 (0x80 + o.code.toNat)]) ∧
    ∀ (o : Operand) (s : State) (x : Byte) (cost : Nat),
      ((∃ r : Reg, o = .reg r ∧ x = s.getReg r ∧ cost = 4) ∨ (o = .atHl ∧ x = s.memRead s.hl ∧ cost = 8)) →
      ∃ t : State, exec (Form.alu .add o).instr s = .next t ∧
        (t.getReg .a).toNat = ((s.getReg .a).toNat + x.toNat) % 256 ∧
        (t.flags.z = true ↔ ((s.getReg .a).toNat + x.toNat) % 256 = 0) ∧ t.flags.n = false ∧
        (t.flags.h = true ↔ (s.getReg .a).toNat % 16 + x.toNat % 16 > 0xF) ∧
        (t.flags.c = true ↔ (s.getReg .a).toNat + x.toNat ≥ 256) ∧
        (∀ q : Reg, q ≠ .a → t.getReg q = s.getReg q) ∧ t.pc = s.pc + 1#16 ∧ t.ticks = s.ticks + cost ∧
        t.sp = s.sp ∧ t.mem = s.mem ∧ t.io = s.io ∧ t.run = s.run

/-- `AND A,r` and `AND A,(HL)` (R102), the 8 constructors of `Form.alu .and`. -/
def Obligations.AndResultAndFlags : Prop :=
  (∀ o : Operand, encode (Form.alu .and o).instr = [BitVec.ofNat 8 (0xA0 + o.code.toNat)]) ∧
    ∀ (o : Operand) (s : State) (x : Byte) (cost : Nat),
      ((∃ r : Reg, o = .reg r ∧ x = s.getReg r ∧ cost = 4) ∨ (o = .atHl ∧ x = s.memRead s.hl ∧ cost = 8)) →
      exec (Form.alu .and o).instr s =
        .next { s with
          regs := { s.regs with a := s.regs.a &&& x }
          flags := { z := decide (s.regs.a &&& x = 0), n := false, h := true, c := false }
          pc := s.pc + 1#16
          ticks := s.ticks + cost }

/-- `XOR A,r` and `XOR A,(HL)` (R103), the 8 constructors of `Form.alu .xor`. -/
def Obligations.XorResultAndFlags : Prop :=
  (∀ o : Operand, encode (Form.alu .xor o).instr = [BitVec.ofNat 8 (0xA8 + o.code.toNat)]) ∧
    ∀ (o : Operand) (s : State) (x : Byte) (cost : Nat),
      ((∃ r : Reg, o = .reg r ∧ x = s.getReg r ∧ cost = 4) ∨ (o = .atHl ∧ x = s.memRead s.hl ∧ cost = 8)) →
      exec (Form.alu .xor o).instr s =
        .next { s with
          regs := { s.regs with a := s.regs.a ^^^ x }
          flags := { z := decide (s.regs.a ^^^ x = 0), n := false, h := false, c := false }
          pc := s.pc + 1#16
          ticks := s.ticks + cost }

/-- `OR A,r` and `OR A,(HL)` (R104), the 8 constructors of `Form.alu .or`. -/
def Obligations.OrResultAndFlags : Prop :=
  (∀ o : Operand, encode (Form.alu .or o).instr = [BitVec.ofNat 8 (0xB0 + o.code.toNat)]) ∧
    ∀ (o : Operand) (s : State) (x : Byte) (cost : Nat),
      ((∃ r : Reg, o = .reg r ∧ x = s.getReg r ∧ cost = 4) ∨ (o = .atHl ∧ x = s.memRead s.hl ∧ cost = 8)) →
      exec (Form.alu .or o).instr s =
        .next { s with
          regs := { s.regs with a := s.regs.a ||| x }
          flags := { z := decide (s.regs.a ||| x = 0), n := false, h := false, c := false }
          pc := s.pc + 1#16
          ticks := s.ticks + cost }

/-- The two forms of the ADD carry are the same predicate (R106, which the spec derives from R101): `result < op0 or result < op1`, and
`op0 + op1 >= 256`. -/
def Obligations.AddCarryFormsAgree : Prop :=
  ∀ x y : Byte, ((aluAdd x y).2.c = true ↔ x.toNat + y.toNat ≥ 256) ∧
    (x.toNat + y.toNat ≥ 256 ↔ (aluAdd x y).1.toNat < x.toNat ∨ (aluAdd x y).1.toNat < y.toNat)

/-- `DEC r` (R107), the 7 constructors of `Form.decReg`: `F.h = (new != 0x0F)`, carry kept. -/
def Obligations.DecrementRegister : Prop :=
  ∀ r : Reg,
    encode (Form.decReg r).instr = [BitVec.ofNat 8 (0x05 + 8 * r.code.toNat)] ∧
      ∀ s : State, ∃ t : State, exec (Form.decReg r).instr s = .next t ∧
        (t.getReg r).toNat = ((s.getReg r).toNat + 255) % 256 ∧ (∀ q : Reg, q ≠ r → t.getReg q = s.getReg q) ∧
        (t.flags.z = true ↔ t.getReg r = 0) ∧ t.flags.n = true ∧ (t.flags.h = true ↔ t.getReg r ≠ 0x0F) ∧
        t.flags.c = s.flags.c ∧ t.pc = s.pc + 1#16 ∧ t.ticks = s.ticks + 4 ∧
        t.sp = s.sp ∧ t.mem = s.mem ∧ t.io = s.io ∧ t.run = s.run

/-! ## The control flow unit -/

/-- `JP n16` (R116), `jpN16`: no region is checked. (Truncation, decision D6, is in `TruncationIsExactlyTheShortFetch`.) -/
def Obligations.JumpAbsolute : Prop :=
  ∀ n16 : Addr, encode (.jpN16 n16) = [0xC3, lo8 n16, hi8 n16] ∧
    ∀ s : State, exec (.jpN16 n16) s = .next { s with pc := n16, ticks := s.ticks + 16 }

/-- `CALL n16` (R117), `callN16`: the return address `pc + 3`, low byte at `sp - 1`, high byte at `sp - 2`. It faults, with no other change, exactly
when `sp` is in 0x0101 to 0x8001. The wrap of `sp` and of the return address is decision D4 (log 1), that nothing changes on the fault D7 (log 4). -/
def Obligations.CallPushesTheReturnAddress : Prop :=
  ∀ n16 : Addr, encode (.callN16 n16) = [0xCD, lo8 n16, hi8 n16] ∧
    (∀ s : State, 0x0101 ≤ s.sp.toNat → s.sp.toNat ≤ 0x8001 →
      exec (.callN16 n16) s = .next { s with run := .faulted .readOnlyViolation s.pc 0xCD }) ∧
    (∀ s : State, s.sp.toNat < 0x0101 ∨ 0x8001 < s.sp.toNat →
      ∃ t : State, exec (.callN16 n16) s = .next t ∧ t.pc = n16 ∧ t.sp = s.sp - 2#16 ∧ t.ticks = s.ticks + 24 ∧
        (t.memRead (s.sp - 1#16)).toNat = (s.pc + 3#16).toNat % 256 ∧ (t.memRead (s.sp - 2#16)).toNat = (s.pc + 3#16).toNat / 256 ∧
        (∀ b : Addr, b ≠ s.sp - 1#16 → b ≠ s.sp - 2#16 → t.memRead b = s.memRead b) ∧
        t.regs = s.regs ∧ t.flags = s.flags ∧ t.run = s.run)

/-- `JP NZ,r8` (R119), `jpNzR8`: taken when `F.z` is 0, with the byte as a signed displacement from the address after the instruction. The wrap of the
target is decision D4 (log 1). -/
def Obligations.JumpRelativeIfNotZero : Prop :=
  ∀ r8 : Byte, encode (.jpNzR8 r8) = [0x20, r8] ∧
    ∀ s : State,
      (s.flags.z = false → ∃ target : Addr, exec (.jpNzR8 r8) s = .next { s with pc := target, ticks := s.ticks + 12 } ∧
        (target.toNat : Int) = ((s.pc.toNat : Int) + 2 + (if r8.toNat < 128 then (r8.toNat : Int) else (r8.toNat : Int) - 256)) % 65536) ∧
      (s.flags.z = true → exec (.jpNzR8 r8) s = .next { s with pc := s.pc + 2#16, ticks := s.ticks + 8 })

/-- `RET NC` (R121), `retNc`: taken when `F.c` is 0, the byte at `sp` is the high byte of the target. -/
def Obligations.ReturnIfNoCarry : Prop :=
  encode .retNc = [0xD0] ∧
    ∀ s : State,
      (s.flags.c = false → ∃ target : Addr,
        exec .retNc s = .next { s with pc := target, sp := s.sp + 2#16, ticks := s.ticks + 20 } ∧
          target.toNat = (s.memRead s.sp).toNat * 256 + (s.memRead (s.sp + 1#16)).toNat) ∧
      (s.flags.c = true → exec .retNc s = .next { s with pc := s.pc + 1#16, ticks := s.ticks + 8 })

/-- A call and the return that follows it (R117, R121, R39; the source's scenario X8): after a `CALL` that does not fault, a `RET NC` with carry clear comes
back to the address after the call with `sp` as before the call. -/
def Obligations.ReturnComesBackToTheCall : Prop :=
  ∀ (s t : State) (n16 : Addr), exec (.callN16 n16) s = .next t → t.run = .running → s.flags.c = false →
    ∃ u : State, exec .retNc t = .next u ∧ u.pc = s.pc + 3#16 ∧ u.sp = s.sp ∧ u.regs = s.regs ∧ u.ticks = s.ticks + 44

/-! ## Encoding -/

/-- Words written out from the spec's encodings (R58, R59), one or more of each family, and the instructions they stand for. -/
def Obligations.WrittenOutWordsDecode : Prop :=
  decode [0x00] = .ok (.nop, []) ∧ decode [0x76] = .ok (.halt, []) ∧ decode [0xF3] = .ok (.di, []) ∧
  decode [0x78] = .ok (.ldAB, []) ∧ decode [0x46] = .ok (.ldBAtHl, []) ∧ decode [0x70] = .ok (.ldAtHlB, []) ∧
  decode [0x0E, 0x10] = .ok (.ldCN8 0x10, []) ∧ decode [0x11, 0x34, 0x12] = .ok (.ldDeN16 0x1234, []) ∧
  decode [0x32] = .ok (.ldAtHlDecA, []) ∧ decode [0xEA, 0x00, 0xC0] = .ok (.ldAtN16A 0xC000, []) ∧
  decode [0xE2, 0x76] = .ok (.ldAtCA, [0x76]) ∧ decode [0x86] = .ok (.addAAtHl, []) ∧ decode [0xA9] = .ok (.xorAC, []) ∧
  decode [0x2D] = .ok (.decL, []) ∧ decode [0xC3, 0x50, 0x01] = .ok (.jpN16 0x0150, []) ∧
  decode [0x20, 0xFC] = .ok (.jpNzR8 0xFC, []) ∧ decode [0xD0] = .ok (.retNc, []) ∧ decode [0xC9] = .ok (.unimplemented 0xC9, [])

/-- Decode inverts encode, for every well-formed instruction of every family, with every operand at every value, whatever bytes follow. -/
def Obligations.DecodeInvertsEncode : Prop :=
  ∀ i : Instr, WellFormed i = true → ∀ rest : List Byte, decode (encode i ++ rest) = .ok (i, rest)

/-- Encode inverts decode: what the decoder reads is well-formed, and its bytes are the ones read. -/
def Obligations.EncodeInvertsDecode : Prop :=
  ∀ (bytes rest : List Byte) (i : Instr), decode bytes = .ok (i, rest) → WellFormed i = true ∧ bytes = encode i ++ rest

/-- The opcode map (R56, R57, R60): of the 256 bytes exactly those of R60's list select an unimplemented instruction, and there are 125. That no other byte
executes is in part the spec's decision D9 (log 6). -/
def Obligations.OpcodeMapIsPartitioned : Prop :=
  (∀ (op n8 : Byte) (n16 : Addr), (instrOf op n8 n16).opcode = op ∧
    ((∃ x : Byte, instrOf op n8 n16 = .unimplemented x) ↔ isUnimplemented op = true)) ∧
  ((List.range 256).filter fun n => isUnimplemented (BitVec.ofNat 8 n)).length = 125

/-! ## The step -/

/-- A step runs the decoded instruction (R66, R71): when the bytes at `pc` are those of a well-formed instruction that does not run past 0xFFFF, and when
they decode to one, a running core's step is `exec` of it at that state. Nothing is added around `exec`: each meaning sets `pc` itself (R69). -/
def Obligations.StepRunsTheDecodedInstruction : Prop :=
  (∀ (s : State) (i : Instr), s.run = .running → WellFormed i = true → s.pc.toNat + (encode i).length ≤ 0x10000 →
    (∀ (j : Nat) (v : Byte), (encode i)[j]? = some v → s.memRead (s.pc + BitVec.ofNat 16 j) = v) → step s = exec i s) ∧
  (∀ (s : State) (i : Instr) (rest : List Byte), s.run = .running →
    s.pc.toNat + operandBytes (s.memRead s.pc) ≤ 0xFFFF →
    decode [s.memRead s.pc, s.memRead (s.pc + 1#16), s.memRead (s.pc + 2#16)] = .ok (i, rest) → step s = exec i s)

/-- `TruncatedInstruction` (R67): a running core's cycle raises it exactly when `pc + k > 0xFFFF`, `k` the opcode's operand bytes, and then before any other
fault (R133) and with no other change. The bound is the spec's decision D6 (log 3), the priority D8 (log 5), that nothing
else changes D7 (log 4). -/
def Obligations.TruncationIsExactlyTheShortFetch : Prop :=
  ∀ s : State, s.run = .running →
    (0xFFFF < s.pc.toNat + operandBytes (s.memRead s.pc) →
      step s = .next { s with run := .faulted .truncatedInstruction s.pc (s.memRead s.pc) }) ∧
    (s.pc.toNat + operandBytes (s.memRead s.pc) ≤ 0xFFFF → ∀ (t : State) (p : Addr) (op : Byte),
      step s = .next t → t.run ≠ .faulted .truncatedInstruction p op)

/-- A running core always takes a cycle (R65): it completes, or it faults with the `pc` and opcode of the instruction. There is no third outcome, and a step
is never refused. -/
def Obligations.RunningCoreTakesACycle : Prop :=
  ∀ s : State, s.run = .running → ∃ t : State, step s = .next t ∧
    (t.run = .running ∨ ∃ k : FaultKind, t.run = .faulted k s.pc (s.memRead s.pc))

/-- A faulted core takes no step, ever (R23, R136). That the model answers with `Fault.stopped` and the record is its own choice (log 20). -/
def Obligations.FaultedCoreTakesNoStep : Prop :=
  ∀ (s : State) (k : FaultKind) (p : Addr) (op : Byte), s.run = .faulted k p op →
    step s = .fault (.stopped k p op) ∧ ∀ t : State, step s ≠ .next t

/-- A faulting cycle changes nothing but `run` (R135), the spec's decision D7 (log 4). -/
def Obligations.FaultingCycleChangesOnlyRun : Prop :=
  ∀ s t : State, step s = .next t → t.run ≠ .running → t = { s with run := t.run }

/-- Every constructor of `Instr`: executing it answers a next state in every state. Where R132 lists no fault for it in that state (`raisesIn`) it
completes and costs what R158 says, and where R132 lists one, the fault is taken. That only `run` changes then is the spec's decision D7 (R135, log 4), and
that the opcode in the record is the instruction's own is this model's (log 25, DEDUCED: under `step` it is the byte at `pc`). -/
def Obligations.EveryInstructionCompletesOrRaisesItsListedFault : Prop :=
  ∀ (i : Instr) (s : State), ∃ t : State, exec i s = .next t ∧
    (raisesIn i s = none → t.run = s.run ∧ t.ticks = s.ticks + formCost i.form s) ∧
    (∀ k : FaultKind, raisesIn i s = some k → t = { s with run := .faulted k s.pc i.opcode })

/-! ## Frames, over all instructions -/

/-- Memory frame (R31): every byte an instruction does not store to reads as before. `storedAddrs` computes the addresses with the expressions the meanings
use, and is empty for a form that stores nothing. An array that backs none of them is untouched. -/
def Obligations.OnlyStoredBytesChange : Prop :=
  ∀ (i : Instr) (s t : State), exec i s = .next t →
    (∀ a : Addr, a ∉ storedAddrs i s → t.memRead a = s.memRead a) ∧
      ((∀ a ∈ storedAddrs i s, inWindow a = true) → t.mem = s.mem) ∧
      ((∀ a ∈ storedAddrs i s, inWindow a = false) → t.io = s.io)

/-- Register frame (the table after R15, and R17): an instruction changes only the registers listed for it, and `sp` only by `LD SP,n16`, `CALL` and a taken
`RET NC`. -/
def Obligations.OnlyListedRegistersChange : Prop :=
  ∀ (i : Instr) (s t : State), exec i s = .next t →
    (∀ r : Reg, r ∉ writtenRegs i.form → t.getReg r = s.getReg r) ∧ (writesSp i.form s = false → t.sp = s.sp)

/-- Flag frame (R19, R20): only `ADD`, `AND`, `XOR`, `OR` and `DEC` change flags, `DEC` keeps carry, and only `ADD` can set carry (R122). -/
def Obligations.OnlyTheAluChangesFlags : Prop :=
  ∀ (i : Instr) (s t : State), exec i s = .next t →
    (t.flags = s.flags ∨ (∃ (op : AluOp) (o : Operand), i.form = .alu op o) ∨ ∃ r : Reg, i.form = .decReg r) ∧
      (∀ r : Reg, i.form = .decReg r → t.flags.c = s.flags.c) ∧
      (t.flags.c = true → s.flags.c = false → ∃ o : Operand, i.form = .alu .add o)

/-! ## Whole-machine rules -/

/-- The invariant holds after reset, for every `INIT_MEM` in canonical form (this model's DESIGN CHOICE of representation, log 22). -/
def Obligations.InvariantHoldsAfterReset : Prop :=
  ∀ init : Memory, Memory.wf 0x10000 init = true → (State.resetWith init).Inv

/-- Every step keeps the invariant. A fault record names the instruction at `pc`, with a kind R132 allows for that opcode at that address (by the spec's
decisions D6 on the bound, D8 on the priority and D13 on the kind for code 6: log 3, 5, 10), and since D7 nothing else has changed (log 4). That both
arrays stay canonical is no rule of the spec: that form is this model's DESIGN CHOICE of representation (log 22). -/
def Obligations.StepKeepsTheInvariant : Prop :=
  ∀ s t : State, s.Inv → step s = .next t → t.Inv

/-- The protected range is constant for the whole run (R35), and the 128 bytes of `mem` under the I/O window are never written (R21, R36). -/
def Obligations.ProtectedAndShadowedBytesNeverChange : Prop :=
  ∀ s t : State, step s = .next t →
    (∀ a : Addr, 0x0100 ≤ a.toNat → a.toNat ≤ 0x7FFF → t.memRead a = s.memRead a) ∧
      (∀ a : Addr, 0xFF00 ≤ a.toNat → a.toNat ≤ 0xFF7F → t.mem.read a.toNat = s.mem.read a.toNat)

/-- `ticks` never decreases (R18): a completing cycle adds 4 to 24, a faulting one nothing (decision D7, log 4). -/
def Obligations.TicksNeverDecrease : Prop :=
  ∀ s t : State, step s = .next t →
    (t.run = .running → s.ticks + 4 ≤ t.ticks ∧ t.ticks ≤ s.ticks + 24) ∧ (t.run ≠ .running → t.ticks = s.ticks)

/-- No rule's outcome depends on `ticks` (R18): from two states that differ only there, the steps differ only there, by the same amount. -/
def Obligations.TicksCannotBeObserved : Prop :=
  ∀ (s t : State) (k : Nat), step s = .next t →
    step { s with ticks := s.ticks + k } = .next { t with ticks := t.ticks + k }

/-- The bytes of `mem` under the I/O window are unreachable (R21, R36): two states that differ only there take steps that differ only there. -/
def Obligations.ShadowedBytesCannotBeObserved : Prop :=
  ∀ s s' t : State, AgreeOffShadow s s' → step s = .next t → ∃ t' : State, step s' = .next t' ∧ AgreeOffShadow t t'

/-- `F.n` and `F.h` are written but never read (R20): two states that differ only there take steps that differ at most there. -/
def Obligations.SubtractAndHalfCarryCannotBeObserved : Prop :=
  ∀ s s' t : State, AgreeOffNH s s' → step s = .next t → ∃ t' : State, step s' = .next t' ∧ AgreeOffNH t t'

/-- A store is seen by the very next fetch (R46), for every form that stores: when an instruction completes, and one of its writes (`formAccesses`, R31)
is of the byte `v` at the new `pc`, the next opcode fetched is `v`. Every byte it wrote, at whatever address, is what a read there gives from then on, so
the operand bytes of the next instruction are seen too. The last clause spells out one form: `LD (HL),A` with `HL` at the next instruction's address. -/
def Obligations.StoreIsSeenByTheNextFetch : Prop :=
  (∀ (i : Instr) (s t : State), exec i s = .next t → t.run = .running →
    (∀ a ∈ storedAddrs i s, ∃ v : Byte, Access.write a v ∈ formAccesses i.form s ∧ t.memRead a = v) ∧
      (∀ (a : Addr) (v : Byte), Access.write a v ∈ formAccesses i.form s → t.memRead a = v) ∧
      (∀ v : Byte, Access.write t.pc v ∈ formAccesses i.form s → t.fetchedOpcode = v)) ∧
  (∀ s t : State, s.hl = s.pc + 1#16 → exec .ldAtHlA s = .next t → t.run = .running → t.fetchedOpcode = s.regs.a)

/-! ## Outputs -/

/-- The trace (R146): a completing cycle emits the `pc` at fetch time and the opcode byte, a faulting one emits nothing (decision D19, log 23). The mnemonic
string is a free value (log 23), so nothing is said of it. -/
def Obligations.TraceRecordsCompletingCycles : Prop :=
  ∀ s t : State, step s = .next t →
    (t.run = .running → ∃ m : String, s.traceRecord = some { pc := s.pc, opcode := s.memRead s.pc, mnemonic := m }) ∧
      (t.run ≠ .running → s.traceRecord = none)

/-- I/O-window events (R147): every event of a cycle lies in the window, and a byte of the window that a cycle changes has a write event of that cycle. That
the model has these events at all, as a function of the state before the step, is its DESIGN CHOICE (log 23): by the spec's decision D19 they are outputs
that a model may leave out. -/
def Obligations.WindowChangesHaveAnIoEvent : Prop :=
  ∀ s t : State, step s = .next t →
    (∀ x ∈ s.ioEvents, inWindow x.addr = true) ∧
      (∀ a : Addr, inWindow a = true → t.memRead a ≠ s.memRead a → Access.write a (t.memRead a) ∈ s.ioEvents)
end

