-- ==== Sys2Proof/Laws/State.lean ====
section
/-! SUPPORT. What each update of State leaves in each field, one lemma per field per update. -/

namespace Sys2Proof.Machine

/-! ## Registers -/

@[simp] theorem getReg_setReg_same (s : State) (r : Reg) (v : Byte) : (s.setReg r v).getReg r = v := by
  cases r <;> rfl

theorem getReg_setReg_other (s : State) {r q : Reg} (v : Byte) (h : q ≠ r) : (s.setReg r v).getReg q = s.getReg q := by
  cases r <;> cases q <;> first | rfl | exact absurd rfl h

theorem getReg_setReg (s : State) (r q : Reg) (v : Byte) :
    (s.setReg r v).getReg q = if q = r then v else s.getReg q := by
  split
  case isTrue h => rw [h, getReg_setReg_same]
  case isFalse h => exact getReg_setReg_other s v h

@[simp] theorem setReg_flags (s : State) (r : Reg) (v : Byte) : (s.setReg r v).flags = s.flags := by cases r <;> rfl
@[simp] theorem setReg_pc (s : State) (r : Reg) (v : Byte) : (s.setReg r v).pc = s.pc := by cases r <;> rfl
@[simp] theorem setReg_sp (s : State) (r : Reg) (v : Byte) : (s.setReg r v).sp = s.sp := by cases r <;> rfl
@[simp] theorem setReg_ticks (s : State) (r : Reg) (v : Byte) : (s.setReg r v).ticks = s.ticks := by cases r <;> rfl
@[simp] theorem setReg_mem (s : State) (r : Reg) (v : Byte) : (s.setReg r v).mem = s.mem := by cases r <;> rfl
@[simp] theorem setReg_io (s : State) (r : Reg) (v : Byte) : (s.setReg r v).io = s.io := by cases r <;> rfl
@[simp] theorem setReg_run (s : State) (r : Reg) (v : Byte) : (s.setReg r v).run = s.run := by cases r <;> rfl

@[simp] theorem setHl_flags (s : State) (v : Addr) : (s.setHl v).flags = s.flags := rfl
@[simp] theorem setHl_pc (s : State) (v : Addr) : (s.setHl v).pc = s.pc := rfl
@[simp] theorem setHl_sp (s : State) (v : Addr) : (s.setHl v).sp = s.sp := rfl
@[simp] theorem setHl_ticks (s : State) (v : Addr) : (s.setHl v).ticks = s.ticks := rfl
@[simp] theorem setHl_mem (s : State) (v : Addr) : (s.setHl v).mem = s.mem := rfl
@[simp] theorem setHl_io (s : State) (v : Addr) : (s.setHl v).io = s.io := rfl
@[simp] theorem setHl_run (s : State) (v : Addr) : (s.setHl v).run = s.run := rfl
@[simp] theorem setHl_h (s : State) (v : Addr) : (s.setHl v).getReg .h = hi8 v := rfl
@[simp] theorem setHl_l (s : State) (v : Addr) : (s.setHl v).getReg .l = lo8 v := rfl
@[simp] theorem setHl_regs_a (s : State) (v : Addr) : (s.setHl v).regs.a = s.regs.a := rfl

theorem getReg_setHl_other (s : State) (v : Addr) {q : Reg} (hh : q ≠ .h) (hl : q ≠ .l) :
    (s.setHl v).getReg q = s.getReg q := by
  cases q <;> first | rfl | exact absurd rfl hh | exact absurd rfl hl

/-- `{hi, lo}` is `hi * 256 + lo` (spec/00_scope.md R6). -/
theorem join16_toNat (hi lo : Byte) : (join16 hi lo).toNat = hi.toNat * 256 + lo.toNat := by
  have := lo.isLt
  rw [join16, BitVec.toNat_append, ← Nat.shiftLeft_add_eq_or_of_lt lo.isLt, Nat.shiftLeft_eq]

theorem lo8_toNat (v : Addr) : (lo8 v).toNat = v.toNat % 256 := BitVec.toNat_setWidth ..

theorem hi8_toNat (v : Addr) : (hi8 v).toNat = v.toNat / 256 := by
  have := v.isLt
  simp only [hi8, BitVec.toNat_setWidth, BitVec.toNat_ushiftRight, Nat.shiftRight_eq_div_pow]
  omega

/-- `{hi8 v, lo8 v}` is `v` (R6). -/
@[simp] theorem join16_hi8_lo8 (v : Addr) : join16 (hi8 v) (lo8 v) = v :=
  BitVec.eq_of_toNat_eq (by rw [join16_toNat, hi8_toNat, lo8_toNat]; omega)

@[simp] theorem hi8_join16 (hi lo : Byte) : hi8 (join16 hi lo) = hi :=
  BitVec.eq_of_toNat_eq (by have := lo.isLt; rw [hi8_toNat, join16_toNat]; omega)

@[simp] theorem lo8_join16 (hi lo : Byte) : lo8 (join16 hi lo) = lo :=
  BitVec.eq_of_toNat_eq (by have := lo.isLt; rw [lo8_toNat, join16_toNat]; omega)

/-- Writing `HL` and reading it back (spec/10_state.md R14). -/
@[simp] theorem hl_setHl (s : State) (v : Addr) : (s.setHl v).hl = v := join16_hi8_lo8 v

/-! ## Register pairs -/

@[simp] theorem setPair_flags (s : State) (p : Pair) (v : Addr) : (s.setPair p v).flags = s.flags := by cases p <;> rfl
@[simp] theorem setPair_pc (s : State) (p : Pair) (v : Addr) : (s.setPair p v).pc = s.pc := by cases p <;> rfl
@[simp] theorem setPair_ticks (s : State) (p : Pair) (v : Addr) : (s.setPair p v).ticks = s.ticks := by cases p <;> rfl
@[simp] theorem setPair_mem (s : State) (p : Pair) (v : Addr) : (s.setPair p v).mem = s.mem := by cases p <;> rfl
@[simp] theorem setPair_io (s : State) (p : Pair) (v : Addr) : (s.setPair p v).io = s.io := by cases p <;> rfl
@[simp] theorem setPair_run (s : State) (p : Pair) (v : Addr) : (s.setPair p v).run = s.run := by cases p <;> rfl

/-! ## Taking a fault -/

@[simp] theorem takeFault_run (s : State) (k : FaultKind) (op : Byte) : (s.takeFault k op).run = .faulted k s.pc op := rfl
@[simp] theorem takeFault_regs (s : State) (k : FaultKind) (op : Byte) : (s.takeFault k op).regs = s.regs := rfl
@[simp] theorem takeFault_flags (s : State) (k : FaultKind) (op : Byte) : (s.takeFault k op).flags = s.flags := rfl
@[simp] theorem takeFault_pc (s : State) (k : FaultKind) (op : Byte) : (s.takeFault k op).pc = s.pc := rfl
@[simp] theorem takeFault_sp (s : State) (k : FaultKind) (op : Byte) : (s.takeFault k op).sp = s.sp := rfl
@[simp] theorem takeFault_ticks (s : State) (k : FaultKind) (op : Byte) : (s.takeFault k op).ticks = s.ticks := rfl
@[simp] theorem takeFault_mem (s : State) (k : FaultKind) (op : Byte) : (s.takeFault k op).mem = s.mem := rfl
@[simp] theorem takeFault_io (s : State) (k : FaultKind) (op : Byte) : (s.takeFault k op).io = s.io := rfl

/-- `MemRead` depends on `mem` and `io` alone. -/
theorem memRead_congr {s t : State} (hm : t.mem = s.mem) (hi : t.io = s.io) (a : Addr) : t.memRead a = s.memRead a := by
  simp only [State.memRead, hm, hi]

@[simp] theorem memRead_setReg (s : State) (r : Reg) (v : Byte) (a : Addr) : (s.setReg r v).memRead a = s.memRead a :=
  memRead_congr (setReg_mem s r v) (setReg_io s r v) a

@[simp] theorem memRead_setHl (s : State) (v : Addr) (a : Addr) : (s.setHl v).memRead a = s.memRead a := rfl

@[simp] theorem memRead_setPair (s : State) (p : Pair) (v : Addr) (a : Addr) : (s.setPair p v).memRead a = s.memRead a :=
  memRead_congr (setPair_mem s p v) (setPair_io s p v) a

@[simp] theorem memRead_takeFault (s : State) (k : FaultKind) (op : Byte) (a : Addr) : (s.takeFault k op).memRead a = s.memRead a := rfl

end Sys2Proof.Machine
end

