-- ==== Sys2Proof/Laws/Memory.lean ====
section
/-! SUPPORT. The laws of byte arrays and of `MemRead`, `MemWrite`, `Push16`, `Pop16` (spec/20_memory.md). -/

namespace Sys2Proof.Machine

/-! ## Read after write -/

theorem Memory.read_insert (m : Memory) (a b : Nat) (v : Byte) :
    (Memory.insert m a v).read b = if b = a then v else m.read b := by
  induction m with
  | nil => simp only [Memory.insert, Memory.read, eq_comm (a := a)]
  | cons cell m ih =>
    obtain ⟨k, w⟩ := cell
    simp only [Memory.insert]
    split
    · simp only [Memory.read, eq_comm (a := a)]
    · split
      · rename_i e
        subst e
        simp only [Memory.read, eq_comm (a := b)]
        split <;> rfl
      · simp only [Memory.read, ih]
        split
        · rename_i h1 h2 e
          rw [if_neg fun c => h2 (c.symm.trans e.symm)]
        · rfl

theorem Memory.read_erase (m : Memory) (a b : Nat) :
    (Memory.erase m a).read b = if b = a then Memory.unlisted else m.read b := by
  induction m with
  | nil => simp only [Memory.erase, Memory.read, ite_self]
  | cons cell m ih =>
    obtain ⟨k, w⟩ := cell
    simp only [Memory.erase]
    split
    · rename_i e
      subst e
      rw [ih]
      simp only [Memory.read, eq_comm (a := b)]
      split <;> rfl
    · simp only [Memory.read, ih]
      split
      · rename_i h e
        rw [if_neg fun c => h (e.trans c)]
      · rfl

/-- A read after a write: the value at that index, everything else as before. It holds of every list, canonical or not. -/
theorem Memory.read_write (m : Memory) (a b : Nat) (v : Byte) :
    (m.write a v).read b = if b = a then v else m.read b := by
  unfold Memory.write
  split
  · rename_i e
    rw [Memory.read_erase, e]
  · exact Memory.read_insert m a b v

@[simp] theorem Memory.read_write_same (m : Memory) (a : Nat) (v : Byte) : (m.write a v).read a = v := by
  simp [Memory.read_write]

theorem Memory.read_write_other (m : Memory) {a b : Nat} (v : Byte) (h : b ≠ a) : (m.write a v).read b = m.read b := by
  simp [Memory.read_write, h]

/-! ## The canonical form -/

theorem Memory.mem_erase {m : Memory} {a : Nat} {x : Host.Cell} (h : x ∈ Memory.erase m a) : x ∈ m := by
  induction m with
  | nil => exact h
  | cons cell m ih =>
    obtain ⟨k, w⟩ := cell
    simp only [Memory.erase] at h
    split at h
    · exact List.mem_cons_of_mem _ (ih h)
    · rcases List.mem_cons.1 h with h | h
      · exact h ▸ List.mem_cons_self ..
      · exact List.mem_cons_of_mem _ (ih h)

theorem Memory.mem_insert {m : Memory} {a : Nat} {v : Byte} {x : Host.Cell} (h : x ∈ Memory.insert m a v) :
    x = (a, v) ∨ x ∈ m := by
  induction m with
  | nil => simpa [Memory.insert] using h
  | cons cell m ih =>
    obtain ⟨k, w⟩ := cell
    simp only [Memory.insert] at h
    split at h
    · simpa using h
    · split at h
      · rcases List.mem_cons.1 h with h | h
        · exact .inl h
        · exact .inr (List.mem_cons_of_mem _ h)
      · rcases List.mem_cons.1 h with h | h
        · exact .inr (h ▸ List.mem_cons_self ..)
        · exact (ih h).imp id (List.mem_cons_of_mem _)

theorem Memory.sorted_cons {k : Nat} {w : Byte} {m : Memory} :
    Memory.sorted ((k, w) :: m) = true ↔ (∀ x ∈ m, k < x.1) ∧ Memory.sorted m = true := by
  simp [Memory.sorted]

theorem Memory.sorted_erase {m : Memory} (a : Nat) (h : Memory.sorted m = true) : Memory.sorted (Memory.erase m a) = true := by
  induction m with
  | nil => rfl
  | cons cell m ih =>
    obtain ⟨k, w⟩ := cell
    obtain ⟨hk, hm⟩ := Memory.sorted_cons.1 h
    simp only [Memory.erase]
    split
    · exact ih hm
    · exact Memory.sorted_cons.2 ⟨fun x hx => hk x (Memory.mem_erase hx), ih hm⟩

theorem Memory.sorted_insert {m : Memory} (a : Nat) (v : Byte) (h : Memory.sorted m = true) :
    Memory.sorted (Memory.insert m a v) = true := by
  induction m with
  | nil => rfl
  | cons cell m ih =>
    obtain ⟨k, w⟩ := cell
    obtain ⟨hk, hm⟩ := Memory.sorted_cons.1 h
    simp only [Memory.insert]
    split
    · rename_i lt
      refine Memory.sorted_cons.2 ⟨fun x hx => ?_, h⟩
      rcases List.mem_cons.1 hx with rfl | hx
      · exact lt
      · exact Nat.lt_trans lt (hk x hx)
    · split
      · rename_i e
        exact Memory.sorted_cons.2 ⟨fun x hx => e ▸ hk x hx, hm⟩
      · refine Memory.sorted_cons.2 ⟨fun x hx => ?_, ih hm⟩
        rcases Memory.mem_insert hx with rfl | hx
        · show k < a
          omega
        · exact hk x hx

theorem Memory.wf_iff {size : Nat} {m : Memory} :
    Memory.wf size m = true ↔ Memory.sorted m = true ∧ ∀ x ∈ m, x.1 < size ∧ x.2 ≠ Memory.unlisted := by
  simp [Memory.wf]

/-- Every write of an index below the size keeps the canonical form. -/
theorem Memory.wf_write {size : Nat} {m : Memory} {a : Nat} (v : Byte) (ha : a < size) (h : Memory.wf size m = true) :
    Memory.wf size (m.write a v) = true := by
  obtain ⟨hs, hx⟩ := Memory.wf_iff.1 h
  refine Memory.wf_iff.2 ?_
  unfold Memory.write
  split
  · exact ⟨Memory.sorted_erase a hs, fun x h => hx x (Memory.mem_erase h)⟩
  · rename_i hv
    refine ⟨Memory.sorted_insert a v hs, fun x h => ?_⟩
    rcases Memory.mem_insert h with rfl | h
    · exact ⟨ha, hv⟩
    · exact hx x h

/-- The loader keeps the canonical form. -/
theorem Memory.wf_load (vs : List Byte) : ∀ (m : Memory) (a : Nat), Memory.wf Config.memSize m = true →
    Memory.wf Config.memSize (Memory.load m a vs) = true := by
  induction vs with
  | nil => exact fun _ _ h => h
  | cons v vs ih =>
    intro m a h
    simp only [Memory.load]
    split
    · rename_i lt
      exact ih _ _ (Memory.wf_write v lt h)
    · exact h

/-! ## The regions -/

theorem isProtected_iff (a : Addr) : isProtected a = true ↔ 0x0100 ≤ a.toNat ∧ a.toNat ≤ 0x7FFF := by
  simp [isProtected]

theorem inWindow_iff (a : Addr) : inWindow a = true ↔ 0xFF00 ≤ a.toNat ∧ a.toNat ≤ 0xFF7F := by
  simp [inWindow]

/-- In the window the index is the distance from 0xFF00, without wrap. -/
theorem ioIndex_eq {a : Addr} (h : inWindow a = true) : ioIndex a + 0xFF00 = a.toNat := by
  have := (inWindow_iff a).1 h
  have := a.isLt
  simp only [ioIndex, BitVec.toNat_sub, BitVec.toNat_ofNat]
  omega

theorem ioIndex_lt {a : Addr} (h : inWindow a = true) : ioIndex a < Config.ioSize := by
  have := (inWindow_iff a).1 h
  have := ioIndex_eq h
  simp only [Config.ioSize]
  omega

theorem ioIndex_inj {a b : Addr} (ha : inWindow a = true) (hb : inWindow b = true) (h : ioIndex a = ioIndex b) : a = b :=
  BitVec.eq_of_toNat_eq (by rw [← ioIndex_eq ha, ← ioIndex_eq hb, h])

/-- `0xFF00 + offset` never wraps (R44). -/
theorem highPage_toNat (n : Byte) : (highPage n).toNat = 0xFF00 + n.toNat := by
  have := n.isLt
  simp only [highPage, BitVec.toNat_add, BitVec.toNat_setWidth, BitVec.toNat_ofNat]
  omega

/-- A high-page address is never in the protected range, so `LDH (n8),A` and `LD (C),A` never fault (R92, R95). -/
@[simp] theorem isProtected_highPage (n : Byte) : isProtected (highPage n) = false := by
  have := highPage_toNat n
  simp [isProtected]
  omega

/-! ## MemWrite: everything it can do -/

/-- If `MemWrite` succeeds, the address is writable and it has replaced the one byte `MemRead` gives there: in `io` or in `mem`. -/
theorem memWrite_cases {s t : State} {a : Addr} {v : Byte} (h : s.memWrite a v = .ok t) :
    isProtected a = false ∧
      ((inWindow a = true ∧ t = { s with io := s.io.write (ioIndex a) v }) ∨
        (inWindow a = false ∧ t = { s with mem := s.mem.write a.toNat v })) := by
  unfold State.memWrite at h
  split at h
  · cases h
  · rename_i hp
    split at h
    · rename_i hw
      cases h
      exact ⟨by simpa using hp, .inl ⟨hw, rfl⟩⟩
    · rename_i hw
      cases h
      exact ⟨by simpa using hp, .inr ⟨by simpa using hw, rfl⟩⟩

/-- `MemWrite` fails on the protected range only, and only with `ReadOnlyViolation`. -/
theorem memWrite_error {s : State} {a : Addr} {v : Byte} {k : FaultKind} (h : s.memWrite a v = .error k) :
    isProtected a = true ∧ k = .readOnlyViolation := by
  unfold State.memWrite at h
  split at h
  · rename_i hp
    cases h
    exact ⟨hp, rfl⟩
  · split at h <;> cases h

theorem memWrite_protected (s : State) {a : Addr} (v : Byte) (h : isProtected a = true) :
    s.memWrite a v = .error .readOnlyViolation := by
  simp [State.memWrite, h]

theorem memWrite_writable (s : State) {a : Addr} (v : Byte) (h : isProtected a = false) : ∃ t, s.memWrite a v = .ok t := by
  unfold State.memWrite
  rw [h]
  cases inWindow a <;> exact ⟨_, rfl⟩

theorem memWrite_regs {s t : State} {a : Addr} {v : Byte} (h : s.memWrite a v = .ok t) : t.regs = s.regs := by
  obtain ⟨-, ⟨-, rfl⟩ | ⟨-, rfl⟩⟩ := memWrite_cases h <;> rfl

theorem memWrite_flags {s t : State} {a : Addr} {v : Byte} (h : s.memWrite a v = .ok t) : t.flags = s.flags := by
  obtain ⟨-, ⟨-, rfl⟩ | ⟨-, rfl⟩⟩ := memWrite_cases h <;> rfl

theorem memWrite_pc {s t : State} {a : Addr} {v : Byte} (h : s.memWrite a v = .ok t) : t.pc = s.pc := by
  obtain ⟨-, ⟨-, rfl⟩ | ⟨-, rfl⟩⟩ := memWrite_cases h <;> rfl

theorem memWrite_sp {s t : State} {a : Addr} {v : Byte} (h : s.memWrite a v = .ok t) : t.sp = s.sp := by
  obtain ⟨-, ⟨-, rfl⟩ | ⟨-, rfl⟩⟩ := memWrite_cases h <;> rfl

theorem memWrite_ticks {s t : State} {a : Addr} {v : Byte} (h : s.memWrite a v = .ok t) : t.ticks = s.ticks := by
  obtain ⟨-, ⟨-, rfl⟩ | ⟨-, rfl⟩⟩ := memWrite_cases h <;> rfl

theorem memWrite_run {s t : State} {a : Addr} {v : Byte} (h : s.memWrite a v = .ok t) : t.run = s.run := by
  obtain ⟨-, ⟨-, rfl⟩ | ⟨-, rfl⟩⟩ := memWrite_cases h <;> rfl

/-- `MemRead` after a successful `MemWrite`. -/
theorem memRead_memWrite {s t : State} {a : Addr} {v : Byte} (h : s.memWrite a v = .ok t) (b : Addr) :
    t.memRead b = if b = a then v else s.memRead b := by
  obtain ⟨-, ⟨hw, rfl⟩ | ⟨hw, rfl⟩⟩ := memWrite_cases h <;> by_cases e : b = a
  · simp [State.memRead, e, hw]
  · cases hb : inWindow b
    · simp [State.memRead, e, hb]
    · simp [State.memRead, e, hb, Memory.read_write_other _ _ fun c => e (ioIndex_inj hb hw c)]
  · simp [State.memRead, e, hw]
  · cases hb : inWindow b
    · simp [State.memRead, e, hb, Memory.read_write_other _ _ fun c => e (BitVec.eq_of_toNat_eq c)]
    · simp [State.memRead, e, hb]

/-- Both arrays stay canonical under `MemWrite`. -/
theorem memWrite_wf {s t : State} {a : Addr} {v : Byte} (h : s.memWrite a v = .ok t)
    (hm : Memory.wf Config.memSize s.mem = true) (hi : Memory.wf Config.ioSize s.io = true) :
    Memory.wf Config.memSize t.mem = true ∧ Memory.wf Config.ioSize t.io = true := by
  obtain ⟨-, ⟨hw, rfl⟩ | ⟨-, rfl⟩⟩ := memWrite_cases h
  · exact ⟨hm, Memory.wf_write v (ioIndex_lt hw) hi⟩
  · exact ⟨Memory.wf_write v a.isLt hm, hi⟩

/-! ## The stack -/

/-- Everything a push can do: fail on a protected byte with `ReadOnlyViolation`, or write the low byte at `sp - 1` and then the high byte at
`sp - 2`. -/
theorem push16_cases (s : State) (v : Addr) :
    (s.push16 v = .error .readOnlyViolation ∧ (isProtected (s.sp - 1#16) = true ∨ isProtected (s.sp - 2#16) = true)) ∨
      (isProtected (s.sp - 1#16) = false ∧ isProtected (s.sp - 2#16) = false ∧
        ∃ s1 s2 : State, { s with sp := s.sp - 1#16 }.memWrite (s.sp - 1#16) (lo8 v) = .ok s1 ∧
          { s1 with sp := s.sp - 2#16 }.memWrite (s.sp - 2#16) (hi8 v) = .ok s2 ∧ s.push16 v = .ok s2) := by
  have e : s.sp - 1#16 - 1#16 = s.sp - 2#16 := by
    rw [BitVec.sub_sub]; rfl
  unfold State.push16
  simp only
  cases h1 : State.memWrite { s with sp := s.sp - 1#16 } (s.sp - 1#16) (lo8 v) with
  | error k =>
    obtain ⟨hp, rfl⟩ := memWrite_error h1
    exact .inl ⟨rfl, .inl hp⟩
  | ok s1 =>
    have hs : s1.sp = s.sp - 1#16 := memWrite_sp h1
    simp only [hs, e]
    cases h2 : State.memWrite { s1 with sp := s.sp - 2#16 } (s.sp - 2#16) (hi8 v) with
    | error k =>
      obtain ⟨hp, rfl⟩ := memWrite_error h2
      exact .inl ⟨rfl, .inr hp⟩
    | ok s2 => exact .inr ⟨(memWrite_cases h1).1, (memWrite_cases h2).1, s1, s2, rfl, h2, rfl⟩

/-- A successful push, field by field. -/
theorem push16_ok {s t : State} {v : Addr} (h : s.push16 v = .ok t) :
    t.sp = s.sp - 2#16 ∧ t.regs = s.regs ∧ t.flags = s.flags ∧ t.pc = s.pc ∧ t.ticks = s.ticks ∧ t.run = s.run ∧
      ∀ b : Addr, t.memRead b = if b = s.sp - 2#16 then hi8 v else if b = s.sp - 1#16 then lo8 v else s.memRead b := by
  rcases push16_cases s v with ⟨he, -⟩ | ⟨-, -, s1, s2, h1, h2, he⟩
  · rw [he] at h; cases h
  · rw [he] at h
    cases h
    have regs := memWrite_regs h1
    have flags := memWrite_flags h1
    have pc := memWrite_pc h1
    have ticks := memWrite_ticks h1
    have run := memWrite_run h1
    refine ⟨memWrite_sp h2, (memWrite_regs h2).trans regs, (memWrite_flags h2).trans flags, (memWrite_pc h2).trans pc,
      (memWrite_ticks h2).trans ticks, (memWrite_run h2).trans run, fun b => ?_⟩
    rw [memRead_memWrite h2]
    split
    · rfl
    · exact memRead_memWrite h1 b

/-- Both arrays stay canonical under a push. -/
theorem push16_wf {s t : State} {v : Addr} (h : s.push16 v = .ok t)
    (hm : Memory.wf Config.memSize s.mem = true) (hi : Memory.wf Config.ioSize s.io = true) :
    Memory.wf Config.memSize t.mem = true ∧ Memory.wf Config.ioSize t.io = true := by
  rcases push16_cases s v with ⟨he, -⟩ | ⟨-, -, s1, s2, h1, h2, he⟩
  · rw [he] at h; cases h
  · rw [he] at h
    cases h
    obtain ⟨hm1, hi1⟩ := memWrite_wf h1 hm hi
    exact memWrite_wf h2 hm1 hi1

/-- A pop reads two bytes and moves `sp`. -/
theorem pop16_eq (s : State) : s.pop16 = (join16 (s.memRead s.sp) (s.memRead (s.sp + 1#16)), { s with sp := s.sp + 2#16 }) := by
  have e : s.sp + 1#16 + 1#16 = s.sp + 2#16 := by rw [BitVec.add_assoc]; rfl
  simp only [State.pop16, e]
  rfl

end Sys2Proof.Machine
end

