-- ==== Sys2Proof/Laws/Forms.lean ====
section
/-! SUPPORT. The 132 meanings as 24 forms, and what each shared operation can do, so that a proof about every instruction is a case split over forms. -/

namespace Sys2Proof

/-! ## Instructions and forms -/

@[simp] theorem instr_form (i : Instr) : i.form.instr = i := by
  cases i <;> rfl

@[simp] theorem form_instr (f : Form) : f.instr.form = f := by
  cases f with
  | ldRegReg dst src => cases dst <;> cases src <;> rfl
  | ldRegAtHl dst => cases dst <;> rfl
  | ldAtHlReg src => cases src <;> rfl
  | ldRegN8 dst n8 => cases dst <;> rfl
  | ldPairN16 p n16 => cases p <;> rfl
  | ldAtHlStepA k => cases k <;> rfl
  | ldAAtHlStep k => cases k <;> rfl
  | alu op o =>
    cases o with
    | reg r => cases op <;> cases r <;> rfl
    | atHl => cases op <;> rfl
  | decReg r => cases r <;> rfl
  | _ => rfl

end Sys2Proof

namespace Sys2Proof.Machine

/-- The result and flags of an accumulator operation. -/
def aluOf : AluOp → Byte → Byte → Byte × Flags
  | .add => aluAdd
  | .and => aluAnd
  | .xor => aluXor
  | .or => aluOr

/-- `exec` over forms: which shared operation the meaning of each form calls. -/
def execForm (f : Form) (s : State) : Host.Outcome State Fault Refusal :=
  match f with
  | .nop | .di => advance 1#16 4 s
  | .halt => raise .haltEncountered 0x76 s
  | .ldRegReg dst src => ldRegReg dst src s
  | .ldRegAtHl dst => ldRegAtHl dst s
  | .ldAtHlReg src => ldAtHlReg (Form.ldAtHlReg src).instr.opcode src s
  | .ldRegN8 dst n8 => ldCodeN8 (Form.ldRegN8 dst n8).instr.opcode (.reg dst) n8 s
  | .ldAtHlN8 n8 => ldCodeN8 0x36 .atHl n8 s
  | .ldPairN16 p n16 => ldPairN16 p n16 s
  | .ldAtHlStepA k => ldAtHlStepA (Form.ldAtHlStepA k).instr.opcode k s
  | .ldAAtHlStep k => ldAAtHlStep k s
  | .ldAtN16A n16 => storeA 0xEA n16 3#16 16 s
  | .ldhAtN8A n8 => storeA 0xE0 (highPage n8) 2#16 12 s
  | .ldhAAtN8 n8 => loadA (highPage n8) 2#16 12 s
  | .ldAtCA => storeA 0xE2 (highPage s.regs.c) 2#16 8 s
  | .ldAAtC => loadA (highPage s.regs.c) 2#16 8 s
  | .alu op o => accumulate (aluOf op) o s
  | .decReg r => decCode (Form.decReg r).instr.opcode (.reg r) s
  | .decAtHl => decCode 0x35 .atHl s
  | .jpN16 n16 => finishAt n16 16 s
  | .callN16 n16 => call 0xCD n16 s
  | .jpNzR8 r8 => jumpRelativeIf .notZero r8 s
  | .retNc => returnIf .noCarry s
  | .unimplemented op => raise .unimplementedOpcode op s

/-- Every meaning is that of its form. -/
theorem exec_eq_execForm (i : Instr) (s : State) : exec i s = execForm i.form s := by
  cases i <;> rfl

theorem exec_instr (f : Form) (s : State) : exec f.instr s = execForm f s := by
  rw [exec_eq_execForm, form_instr]

/-! ## What the shared operations answer -/

theorem ldCodeN8_reg (op : Byte) (r : Reg) (n8 : Byte) (s : State) :
    ldCodeN8 op (.reg r) n8 s = advance 2#16 8 (s.setReg r n8) := rfl

theorem ldCodeN8_atHl (op n8 : Byte) (s : State) : ldCodeN8 op .atHl n8 s = raise .invalidRegisterAccess op s := rfl

theorem decCode_reg (op : Byte) (r : Reg) (s : State) :
    decCode op (.reg r) s =
      advance 1#16 4 { s.setReg r (aluDec (s.getReg r) s.flags).1 with flags := (aluDec (s.getReg r) s.flags).2 } := rfl

theorem decCode_atHl (op : Byte) (s : State) : decCode op .atHl s = raise .invalidRegisterAccess op s := rfl

/-- `LD (HL),r` answers a fault on a protected `HL`, and otherwise the state after the write. -/
theorem ldAtHlReg_cases (op : Byte) (r : Reg) (s : State) :
    (isProtected s.hl = true ∧ ldAtHlReg op r s = raise .readOnlyViolation op s) ∨
      (isProtected s.hl = false ∧ ∃ t, s.memWrite s.hl (s.getReg r) = .ok t ∧ ldAtHlReg op r s = advance 1#16 8 t) := by
  unfold ldAtHlReg
  cases hp : isProtected s.hl
  · obtain ⟨t, ht⟩ := memWrite_writable s (s.getReg r) hp
    exact .inr ⟨rfl, t, ht, by rw [ht]⟩
  · exact .inl ⟨rfl, by rw [memWrite_protected s _ hp]⟩

theorem ldAtHlStepA_cases (op : Byte) (k : HlStep) (s : State) :
    (isProtected s.hl = true ∧ ldAtHlStepA op k s = raise .readOnlyViolation op s) ∨
      (isProtected s.hl = false ∧
        ∃ t, s.memWrite s.hl s.regs.a = .ok t ∧ ldAtHlStepA op k s = advance 1#16 8 (t.setHl (stepHl k s.hl))) := by
  unfold ldAtHlStepA
  cases hp : isProtected s.hl
  · obtain ⟨t, ht⟩ := memWrite_writable s s.regs.a hp
    exact .inr ⟨rfl, t, ht, by rw [ht]⟩
  · exact .inl ⟨rfl, by rw [memWrite_protected s _ hp]⟩

theorem storeA_cases (op : Byte) (a n : Addr) (cost : Nat) (s : State) :
    (isProtected a = true ∧ storeA op a n cost s = raise .readOnlyViolation op s) ∨
      (isProtected a = false ∧ ∃ t, s.memWrite a s.regs.a = .ok t ∧ storeA op a n cost s = advance n cost t) := by
  unfold storeA
  cases hp : isProtected a
  · obtain ⟨t, ht⟩ := memWrite_writable s s.regs.a hp
    exact .inr ⟨rfl, t, ht, by rw [ht]⟩
  · exact .inl ⟨rfl, by rw [memWrite_protected s _ hp]⟩

theorem call_cases (op : Byte) (n16 : Addr) (s : State) :
    ((isProtected (s.sp - 1#16) = true ∨ isProtected (s.sp - 2#16) = true) ∧ call op n16 s = raise .readOnlyViolation op s) ∨
      (isProtected (s.sp - 1#16) = false ∧ isProtected (s.sp - 2#16) = false ∧
        ∃ t, s.push16 (s.pc + 3#16) = .ok t ∧ call op n16 s = finishAt n16 24 t) := by
  unfold call
  rcases push16_cases s (s.pc + 3#16) with ⟨he, hp⟩ | ⟨h1, h2, -, t, -, -, he⟩
  · exact .inl ⟨hp, by rw [he]⟩
  · exact .inr ⟨h1, h2, t, he, by rw [he]⟩

theorem jumpRelativeIf_cases (c : Cond) (r8 : Byte) (s : State) :
    (condHolds s.flags c = true ∧ jumpRelativeIf c r8 s = finishAt (relativeTarget s.pc r8) 12 s) ∨
      (condHolds s.flags c = false ∧ jumpRelativeIf c r8 s = advance 2#16 8 s) := by
  unfold jumpRelativeIf
  cases condHolds s.flags c
  · exact .inr ⟨rfl, rfl⟩
  · exact .inl ⟨rfl, rfl⟩

theorem returnIf_cases (c : Cond) (s : State) :
    (condHolds s.flags c = true ∧
      returnIf c s = finishAt (join16 (s.memRead s.sp) (s.memRead (s.sp + 1#16))) 20 { s with sp := s.sp + 2#16 }) ∨
      (condHolds s.flags c = false ∧ returnIf c s = advance 1#16 8 s) := by
  unfold returnIf
  cases condHolds s.flags c
  · exact .inr ⟨rfl, rfl⟩
  · refine .inl ⟨rfl, ?_⟩
    rw [pop16_eq]
    rfl

end Sys2Proof.Machine
end

