-- ==== Sys2Proof/Laws/Fetch.lean ====
section
/-! SUPPORT. What the decoder and the fetch answer, by the number of operand bytes, and what a step can be. -/

namespace Sys2Proof

/-! ## The decoder -/

theorem decode_no_operand {op : Byte} (rest : List Byte) (h : operandBytes op = 0) :
    decode (op :: rest) = .ok (instrOf op 0#8 0#16, rest) := by
  simp [decode, h]

theorem decode_one_operand {op : Byte} (n8 : Byte) (rest : List Byte) (h : operandBytes op = 1) :
    decode (op :: n8 :: rest) = .ok (instrOf op n8 0#16, rest) := by
  simp [decode, h]

theorem decode_two_operands {op : Byte} (lo hi : Byte) (rest : List Byte) (h : operandBytes op = 2) :
    decode (op :: lo :: hi :: rest) = .ok (instrOf op 0#8 (join16 hi lo), rest) := by
  simp [decode, h]

theorem operandBytes_le_two (op : Byte) : operandBytes op ≤ 2 := by
  have h : ∀ op : Byte, operandBytes op ≤ 2 := by decide
  exact h op

end Sys2Proof

namespace Sys2Proof.Machine

/-! ## The fetch -/

/-- The instruction at `pc` when its operand bytes remain. -/
def State.fetchedInstr (s : State) : Instr :=
  match operandBytes s.fetchedOpcode with
  | 0 => instrOf s.fetchedOpcode 0#8 0#16
  | 1 => instrOf s.fetchedOpcode (s.memRead (s.pc + 1#16)) 0#16
  | _ => instrOf s.fetchedOpcode 0#8 (join16 (s.memRead (s.pc + 2#16)) (s.memRead (s.pc + 1#16)))

theorem fetch_truncated {s : State} (h : s.operandsRemain = false) : s.fetch = .error .truncatedInstruction := by
  simp [State.fetch, h]

/-- The decoder never fails on the bytes the fetch gives it. -/
theorem fetch_remaining {s : State} (h : s.operandsRemain = true) : s.fetch = .ok s.fetchedInstr := by
  have le := operandBytes_le_two s.fetchedOpcode
  have add : s.pc + 1#16 + 1#16 = s.pc + 2#16 := by rw [BitVec.add_assoc]; rfl
  unfold State.fetch State.fetchedInstr State.fetchedBytes
  rw [if_pos h]
  match hk : operandBytes s.fetchedOpcode with
  | 0 =>
    have e := decode_no_operand [] hk
    simp only [List.range_zero, List.map_nil, e]
  | 1 =>
    have e := decode_one_operand (s.memRead (s.pc + 1#16)) [] hk
    simp only [List.range_succ, List.range_zero, List.nil_append, List.map_cons, List.map_nil, BitVec.add_zero, e]
  | 2 =>
    have e := decode_two_operands (s.memRead (s.pc + 1#16)) (s.memRead (s.pc + 2#16)) [] hk
    simp only [List.range_succ, List.range_zero, List.nil_append, List.cons_append, List.map_cons, List.map_nil, BitVec.add_zero, add, e]
  | k + 3 => omega

/-! ## The step -/

/-- Everything a step can be: no step of a faulted core, a truncated fetch, or the execution of the instruction at `pc`. -/
theorem step_cases (s : State) :
    (∃ k p op, s.run = .faulted k p op ∧ step s = .fault (.stopped k p op)) ∨
      (s.run = .running ∧ s.operandsRemain = false ∧ step s = raise .truncatedInstruction s.fetchedOpcode s) ∨
      (s.run = .running ∧ s.operandsRemain = true ∧ step s = exec s.fetchedInstr s) := by
  cases hr : s.run with
  | faulted k p op => exact .inl ⟨k, p, op, rfl, by simp [step, hr]⟩
  | running =>
    cases ho : s.operandsRemain with
    | false => exact .inr (.inl ⟨rfl, rfl, by simp [step, hr, fetch_truncated ho]⟩)
    | true => exact .inr (.inr ⟨rfl, rfl, by simp [step, hr, fetch_remaining ho]⟩)

end Sys2Proof.Machine
end

