-- ==== Sys2Proof/Laws/PerInstr.lean ====
section
/-! SUPPORT. Facts about every instruction as a term, one lemma per constructor. -/

/-- The bytes of an instruction (spec/30_encoding.md R51, R57): a well-formed instruction is encoded in its opcode byte and as many operand
bytes as the decoder reads for that opcode. -/
def Sys2Proof.Laws.EncodedLength.Statement (i : Sys2Proof.Instr) : Prop :=
  Sys2Proof.WellFormed i = true → (Sys2Proof.encode i).length = 1 + Sys2Proof.operandBytes i.opcode

/-- R57: an unimplemented byte has no operand bytes. -/
theorem Sys2Proof.Laws.operandBytes_unimplemented :
    ∀ op : Sys2Proof.Byte, Sys2Proof.isUnimplemented op = true → Sys2Proof.operandBytes op = 0 := by
  decide

namespace Sys2Proof.Laws.EncodedLength

theorem nop : Statement (.nop) := fun _ => rfl

theorem ldBcN16 (n16 : Addr) : Statement (.ldBcN16 n16) := fun _ => rfl

theorem decB : Statement (.decB) := fun _ => rfl

theorem ldBN8 (n8 : Byte) : Statement (.ldBN8 n8) := fun _ => rfl

theorem decC : Statement (.decC) := fun _ => rfl

theorem ldCN8 (n8 : Byte) : Statement (.ldCN8 n8) := fun _ => rfl

theorem ldDeN16 (n16 : Addr) : Statement (.ldDeN16 n16) := fun _ => rfl

theorem decD : Statement (.decD) := fun _ => rfl

theorem ldDN8 (n8 : Byte) : Statement (.ldDN8 n8) := fun _ => rfl

theorem decE : Statement (.decE) := fun _ => rfl

theorem ldEN8 (n8 : Byte) : Statement (.ldEN8 n8) := fun _ => rfl

theorem jpNzR8 (r8 : Byte) : Statement (.jpNzR8 r8) := fun _ => rfl

theorem ldHlN16 (n16 : Addr) : Statement (.ldHlN16 n16) := fun _ => rfl

theorem ldAtHlIncA : Statement (.ldAtHlIncA) := fun _ => rfl

theorem decH : Statement (.decH) := fun _ => rfl

theorem ldHN8 (n8 : Byte) : Statement (.ldHN8 n8) := fun _ => rfl

theorem ldAAtHlInc : Statement (.ldAAtHlInc) := fun _ => rfl

theorem decL : Statement (.decL) := fun _ => rfl

theorem ldLN8 (n8 : Byte) : Statement (.ldLN8 n8) := fun _ => rfl

theorem ldSpN16 (n16 : Addr) : Statement (.ldSpN16 n16) := fun _ => rfl

theorem ldAtHlDecA : Statement (.ldAtHlDecA) := fun _ => rfl

theorem decAtHl : Statement (.decAtHl) := fun _ => rfl

theorem ldAtHlN8 (n8 : Byte) : Statement (.ldAtHlN8 n8) := fun _ => rfl

theorem ldAAtHlDec : Statement (.ldAAtHlDec) := fun _ => rfl

theorem decA : Statement (.decA) := fun _ => rfl

theorem ldAN8 (n8 : Byte) : Statement (.ldAN8 n8) := fun _ => rfl

theorem ldBB : Statement (.ldBB) := fun _ => rfl

theorem ldBC : Statement (.ldBC) := fun _ => rfl

theorem ldBD : Statement (.ldBD) := fun _ => rfl

theorem ldBE : Statement (.ldBE) := fun _ => rfl

theorem ldBH : Statement (.ldBH) := fun _ => rfl

theorem ldBL : Statement (.ldBL) := fun _ => rfl

theorem ldBAtHl : Statement (.ldBAtHl) := fun _ => rfl

theorem ldBA : Statement (.ldBA) := fun _ => rfl

theorem ldCB : Statement (.ldCB) := fun _ => rfl

theorem ldCC : Statement (.ldCC) := fun _ => rfl

theorem ldCD : Statement (.ldCD) := fun _ => rfl

theorem ldCE : Statement (.ldCE) := fun _ => rfl

theorem ldCH : Statement (.ldCH) := fun _ => rfl

theorem ldCL : Statement (.ldCL) := fun _ => rfl

theorem ldCAtHl : Statement (.ldCAtHl) := fun _ => rfl

theorem ldCA : Statement (.ldCA) := fun _ => rfl

theorem ldDB : Statement (.ldDB) := fun _ => rfl

theorem ldDC : Statement (.ldDC) := fun _ => rfl

theorem ldDD : Statement (.ldDD) := fun _ => rfl

theorem ldDE : Statement (.ldDE) := fun _ => rfl

theorem ldDH : Statement (.ldDH) := fun _ => rfl

theorem ldDL : Statement (.ldDL) := fun _ => rfl

theorem ldDAtHl : Statement (.ldDAtHl) := fun _ => rfl

theorem ldDA : Statement (.ldDA) := fun _ => rfl

theorem ldEB : Statement (.ldEB) := fun _ => rfl

theorem ldEC : Statement (.ldEC) := fun _ => rfl

theorem ldED : Statement (.ldED) := fun _ => rfl

theorem ldEE : Statement (.ldEE) := fun _ => rfl

theorem ldEH : Statement (.ldEH) := fun _ => rfl

theorem ldEL : Statement (.ldEL) := fun _ => rfl

theorem ldEAtHl : Statement (.ldEAtHl) := fun _ => rfl

theorem ldEA : Statement (.ldEA) := fun _ => rfl

theorem ldHB : Statement (.ldHB) := fun _ => rfl

theorem ldHC : Statement (.ldHC) := fun _ => rfl

theorem ldHD : Statement (.ldHD) := fun _ => rfl

theorem ldHE : Statement (.ldHE) := fun _ => rfl

theorem ldHH : Statement (.ldHH) := fun _ => rfl

theorem ldHL : Statement (.ldHL) := fun _ => rfl

theorem ldHAtHl : Statement (.ldHAtHl) := fun _ => rfl

theorem ldHA : Statement (.ldHA) := fun _ => rfl

theorem ldLB : Statement (.ldLB) := fun _ => rfl

theorem ldLC : Statement (.ldLC) := fun _ => rfl

theorem ldLD : Statement (.ldLD) := fun _ => rfl

theorem ldLE : Statement (.ldLE) := fun _ => rfl

theorem ldLH : Statement (.ldLH) := fun _ => rfl

theorem ldLL : Statement (.ldLL) := fun _ => rfl

theorem ldLAtHl : Statement (.ldLAtHl) := fun _ => rfl

theorem ldLA : Statement (.ldLA) := fun _ => rfl

theorem ldAtHlB : Statement (.ldAtHlB) := fun _ => rfl

theorem ldAtHlC : Statement (.ldAtHlC) := fun _ => rfl

theorem ldAtHlD : Statement (.ldAtHlD) := fun _ => rfl

theorem ldAtHlE : Statement (.ldAtHlE) := fun _ => rfl

theorem ldAtHlH : Statement (.ldAtHlH) := fun _ => rfl

theorem ldAtHlL : Statement (.ldAtHlL) := fun _ => rfl

theorem halt : Statement (.halt) := fun _ => rfl

theorem ldAtHlA : Statement (.ldAtHlA) := fun _ => rfl

theorem ldAB : Statement (.ldAB) := fun _ => rfl

theorem ldAC : Statement (.ldAC) := fun _ => rfl

theorem ldAD : Statement (.ldAD) := fun _ => rfl

theorem ldAE : Statement (.ldAE) := fun _ => rfl

theorem ldAH : Statement (.ldAH) := fun _ => rfl

theorem ldAL : Statement (.ldAL) := fun _ => rfl

theorem ldAAtHl : Statement (.ldAAtHl) := fun _ => rfl

theorem ldAA : Statement (.ldAA) := fun _ => rfl

theorem addAB : Statement (.addAB) := fun _ => rfl

theorem addAC : Statement (.addAC) := fun _ => rfl

theorem addAD : Statement (.addAD) := fun _ => rfl

theorem addAE : Statement (.addAE) := fun _ => rfl

theorem addAH : Statement (.addAH) := fun _ => rfl

theorem addAL : Statement (.addAL) := fun _ => rfl

theorem addAAtHl : Statement (.addAAtHl) := fun _ => rfl

theorem addAA : Statement (.addAA) := fun _ => rfl

theorem andAB : Statement (.andAB) := fun _ => rfl

theorem andAC : Statement (.andAC) := fun _ => rfl

theorem andAD : Statement (.andAD) := fun _ => rfl

theorem andAE : Statement (.andAE) := fun _ => rfl

theorem andAH : Statement (.andAH) := fun _ => rfl

theorem andAL : Statement (.andAL) := fun _ => rfl

theorem andAAtHl : Statement (.andAAtHl) := fun _ => rfl

theorem andAA : Statement (.andAA) := fun _ => rfl

theorem xorAB : Statement (.xorAB) := fun _ => rfl

theorem xorAC : Statement (.xorAC) := fun _ => rfl

theorem xorAD : Statement (.xorAD) := fun _ => rfl

theorem xorAE : Statement (.xorAE) := fun _ => rfl

theorem xorAH : Statement (.xorAH) := fun _ => rfl

theorem xorAL : Statement (.xorAL) := fun _ => rfl

theorem xorAAtHl : Statement (.xorAAtHl) := fun _ => rfl

theorem xorAA : Statement (.xorAA) := fun _ => rfl

theorem orAB : Statement (.orAB) := fun _ => rfl

theorem orAC : Statement (.orAC) := fun _ => rfl

theorem orAD : Statement (.orAD) := fun _ => rfl

theorem orAE : Statement (.orAE) := fun _ => rfl

theorem orAH : Statement (.orAH) := fun _ => rfl

theorem orAL : Statement (.orAL) := fun _ => rfl

theorem orAAtHl : Statement (.orAAtHl) := fun _ => rfl

theorem orAA : Statement (.orAA) := fun _ => rfl

theorem jpN16 (n16 : Addr) : Statement (.jpN16 n16) := fun _ => rfl

theorem callN16 (n16 : Addr) : Statement (.callN16 n16) := fun _ => rfl

theorem retNc : Statement (.retNc) := fun _ => rfl

theorem ldhAtN8A (n8 : Byte) : Statement (.ldhAtN8A n8) := fun _ => rfl

theorem ldAtCA : Statement (.ldAtCA) := fun _ => rfl

theorem ldAtN16A (n16 : Addr) : Statement (.ldAtN16A n16) := fun _ => rfl

theorem ldhAAtN8 (n8 : Byte) : Statement (.ldhAAtN8 n8) := fun _ => rfl

theorem ldAAtC : Statement (.ldAAtC) := fun _ => rfl

theorem di : Statement (.di) := fun _ => rfl

theorem unimplemented (op : Byte) : Statement (.unimplemented op) := fun h =>
  show 1 = 1 + operandBytes op from (operandBytes_unimplemented op h).symm ▸ rfl

end Sys2Proof.Laws.EncodedLength
end

