-- ==== Sys2Proof/Tests/Slice0.lean ====
section
/-! SUPPORT. This model's own tests. Expected values are those of the spec: the encodings of spec/30_encoding.md R58 and R60 (as
spec/opcode_table.json writes them), the vectors V-... and X... of spec/95_test_vectors.md. Then a witness for the hypotheses of each statement
that has any. -/

namespace Sys2Proof.Tests

open Sys2Proof.Machine

/-! ## Well-formedness: the one check, with terms it refuses -/

theorem test_wellFormed_accepts : (WellFormed .nop && WellFormed (.unimplemented 0x02) && WellFormed (.unimplemented 0xFF)) = true := by decide

/-- 0x00, 0x76 and 0xE2 are listed opcodes, so they are not `unimplemented` ones. -/
theorem test_wellFormed_refuses :
    (WellFormed (.unimplemented 0x00) || WellFormed (.unimplemented 0x76) || WellFormed (.unimplemented 0xE2)) = false := by decide

/-! ## Decoding: one word for every constructor, bit by bit from the table -/

/-- Do these bytes decode to this instruction, with nothing left over? -/
def reads (p : List Byte × Instr) : Bool :=
  match decode p.1 with
  | .ok (i, []) => decide (i = p.2)
  | _ => false

/-- `NOP`, `HALT`, `DI`. -/
theorem test_decode_loop :
    [([0b00000000], .nop), ([0b01110110], .halt), ([0b11110011], .di)].all reads = true := by decide

/-- `LD B,r'` and `LD B,(HL)`: 01 ddd sss. -/
theorem test_decode_ld_b :
    [([0b01000000], .ldBB), ([0b01000001], .ldBC), ([0b01000010], .ldBD),
     ([0b01000011], .ldBE), ([0b01000100], .ldBH), ([0b01000101], .ldBL),
     ([0b01000110], .ldBAtHl), ([0b01000111], .ldBA)].all reads = true := by decide

/-- `LD C,r'` and `LD C,(HL)`: 01 ddd sss. -/
theorem test_decode_ld_c :
    [([0b01001000], .ldCB), ([0b01001001], .ldCC), ([0b01001010], .ldCD),
     ([0b01001011], .ldCE), ([0b01001100], .ldCH), ([0b01001101], .ldCL),
     ([0b01001110], .ldCAtHl), ([0b01001111], .ldCA)].all reads = true := by decide

/-- `LD D,r'` and `LD D,(HL)`: 01 ddd sss. -/
theorem test_decode_ld_d :
    [([0b01010000], .ldDB), ([0b01010001], .ldDC), ([0b01010010], .ldDD),
     ([0b01010011], .ldDE), ([0b01010100], .ldDH), ([0b01010101], .ldDL),
     ([0b01010110], .ldDAtHl), ([0b01010111], .ldDA)].all reads = true := by decide

/-- `LD E,r'` and `LD E,(HL)`: 01 ddd sss. -/
theorem test_decode_ld_e :
    [([0b01011000], .ldEB), ([0b01011001], .ldEC), ([0b01011010], .ldED),
     ([0b01011011], .ldEE), ([0b01011100], .ldEH), ([0b01011101], .ldEL),
     ([0b01011110], .ldEAtHl), ([0b01011111], .ldEA)].all reads = true := by decide

/-- `LD H,r'` and `LD H,(HL)`: 01 ddd sss. -/
theorem test_decode_ld_h :
    [([0b01100000], .ldHB), ([0b01100001], .ldHC), ([0b01100010], .ldHD),
     ([0b01100011], .ldHE), ([0b01100100], .ldHH), ([0b01100101], .ldHL),
     ([0b01100110], .ldHAtHl), ([0b01100111], .ldHA)].all reads = true := by decide

/-- `LD L,r'` and `LD L,(HL)`: 01 ddd sss. -/
theorem test_decode_ld_l :
    [([0b01101000], .ldLB), ([0b01101001], .ldLC), ([0b01101010], .ldLD),
     ([0b01101011], .ldLE), ([0b01101100], .ldLH), ([0b01101101], .ldLL),
     ([0b01101110], .ldLAtHl), ([0b01101111], .ldLA)].all reads = true := by decide

/-- `LD A,r'` and `LD A,(HL)`: 01 ddd sss. -/
theorem test_decode_ld_a :
    [([0b01111000], .ldAB), ([0b01111001], .ldAC), ([0b01111010], .ldAD),
     ([0b01111011], .ldAE), ([0b01111100], .ldAH), ([0b01111101], .ldAL),
     ([0b01111110], .ldAAtHl), ([0b01111111], .ldAA)].all reads = true := by decide

/-- `LD (HL),r`: 01 110 sss. -/
theorem test_decode_ld_at_hl :
    [([0b01110000], .ldAtHlB), ([0b01110001], .ldAtHlC), ([0b01110010], .ldAtHlD),
     ([0b01110011], .ldAtHlE), ([0b01110100], .ldAtHlH), ([0b01110101], .ldAtHlL),
     ([0b01110111], .ldAtHlA)].all reads = true := by decide

/-- `LD r,n8`: 00 ddd 110, then the byte. -/
theorem test_decode_ld_r_n8 :
    [([0b00000110, 0b10101011], .ldBN8 0xAB), ([0b00001110, 0b10101011], .ldCN8 0xAB), ([0b00010110, 0b10101011], .ldDN8 0xAB),
     ([0b00011110, 0b10101011], .ldEN8 0xAB), ([0b00100110, 0b10101011], .ldHN8 0xAB), ([0b00101110, 0b10101011], .ldLN8 0xAB),
     ([0b00110110, 0b10101011], .ldAtHlN8 0xAB), ([0b00111110, 0b10101011], .ldAN8 0xAB)].all reads = true := by decide

/-- `LD rr,n16`: the low byte first (R54). -/
theorem test_decode_ld_rr_n16 :
    [([0b00000001, 0b00110100, 0b00010010], .ldBcN16 0x1234), ([0b00010001, 0b00110100, 0b00010010], .ldDeN16 0x1234), ([0b00100001, 0b00110100, 0b00010010], .ldHlN16 0x1234),
     ([0b00110001, 0b00110100, 0b00010010], .ldSpN16 0x1234)].all reads = true := by decide

/-- The post-increment and post-decrement forms. -/
theorem test_decode_hl_step :
    [([0b00100010], .ldAtHlIncA), ([0b00101010], .ldAAtHlInc), ([0b00110010], .ldAtHlDecA),
     ([0b00111010], .ldAAtHlDec)].all reads = true := by decide

/-- The absolute and high-page forms. -/
theorem test_decode_high_page :
    [([0b11100000, 0b10101011], .ldhAtN8A 0xAB), ([0b11100010], .ldAtCA), ([0b11101010, 0b00110100, 0b00010010], .ldAtN16A 0x1234),
     ([0b11110000, 0b10101011], .ldhAAtN8 0xAB), ([0b11110010], .ldAAtC)].all reads = true := by decide

/-- `ADD A,r`: 10 ooo rrr. -/
theorem test_decode_add :
    [([0b10000000], .addAB), ([0b10000001], .addAC), ([0b10000010], .addAD),
     ([0b10000011], .addAE), ([0b10000100], .addAH), ([0b10000101], .addAL),
     ([0b10000110], .addAAtHl), ([0b10000111], .addAA)].all reads = true := by decide

/-- `AND A,r`: 10 ooo rrr. -/
theorem test_decode_and :
    [([0b10100000], .andAB), ([0b10100001], .andAC), ([0b10100010], .andAD),
     ([0b10100011], .andAE), ([0b10100100], .andAH), ([0b10100101], .andAL),
     ([0b10100110], .andAAtHl), ([0b10100111], .andAA)].all reads = true := by decide

/-- `XOR A,r`: 10 ooo rrr. -/
theorem test_decode_xor :
    [([0b10101000], .xorAB), ([0b10101001], .xorAC), ([0b10101010], .xorAD),
     ([0b10101011], .xorAE), ([0b10101100], .xorAH), ([0b10101101], .xorAL),
     ([0b10101110], .xorAAtHl), ([0b10101111], .xorAA)].all reads = true := by decide

/-- `OR A,r`: 10 ooo rrr. -/
theorem test_decode_or :
    [([0b10110000], .orAB), ([0b10110001], .orAC), ([0b10110010], .orAD),
     ([0b10110011], .orAE), ([0b10110100], .orAH), ([0b10110101], .orAL),
     ([0b10110110], .orAAtHl), ([0b10110111], .orAA)].all reads = true := by decide

/-- `DEC r`: 00 rrr 101. -/
theorem test_decode_dec :
    [([0b00000101], .decB), ([0b00001101], .decC), ([0b00010101], .decD),
     ([0b00011101], .decE), ([0b00100101], .decH), ([0b00101101], .decL),
     ([0b00110101], .decAtHl), ([0b00111101], .decA)].all reads = true := by decide

/-- The control flow unit. -/
theorem test_decode_control :
    [([0b00100000, 0b10101011], .jpNzR8 0xAB), ([0b11000011, 0b00110100, 0b00010010], .jpN16 0x1234), ([0b11001101, 0b00110100, 0b00010010], .callN16 0x1234),
     ([0b11010000], .retNc)].all reads = true := by decide

/-- Both ends of each range of R60. -/
theorem test_decode_unimplemented :
    ([0x02, 0x04, 0x07, 0x0C, 0x0F, 0x10, 0x12, 0x14, 0x17, 0x1C, 0x1F, 0x23, 0x24, 0x27, 0x29, 0x2B,
      0x2C, 0x2F, 0x30, 0x33, 0x34, 0x37, 0x39, 0x3B, 0x3C, 0x3F, 0x88, 0x9F, 0xB8, 0xC2, 0xC4, 0xCC,
      0xCE, 0xCF, 0xD1, 0xDF, 0xE1, 0xE3, 0xE9, 0xEB, 0xEF, 0xF1, 0xF4, 0xFF] : List Byte).all (fun op => reads ([op], .unimplemented op)) = true := by decide

/-- A word numbered as the table numbers it: bit 0 is the least significant bit of the first byte, absent operand bytes are zero. -/
theorem test_decodeTableWord :
    (decodeTableWord 8 0x41 = some .ldBC) ∧ (decodeTableWord 24 0xC000EA = some (.ldAtN16A 0xC000)) ∧ (decodeTableWord 8 0x01 = some (.ldBcN16 0)) ∧
      (decodeTableWord 8 0xD3 = some (.unimplemented 0xD3)) := by decide

/-- Operand bytes that are not there. -/
theorem test_decode_short :
    (decode [] matches .error .noOpcode) = true ∧ (decode [0x3E] matches .error (.truncated 0x3E)) = true ∧
      (decode [0xC3, 0x00] matches .error (.truncated 0xC3)) = true := by decide

/-! ## One step -/

/-- The reset state with `pc` moved and bytes at it. -/
def startAt (pc : Addr) (bytes : List Byte) : State :=
  { State.reset with pc := pc }.placeBytes pc.toNat bytes

/-- The reset state with bytes at 0x0100. -/
def start (bytes : List Byte) : State := startAt 0x0100 bytes

/-- Set `HL`, one byte of memory, `A`. -/
def withHl (v : Addr) (s : State) : State := s.setHl v
def withByte (a : Addr) (v : Byte) (s : State) : State := s.placeByte a v
def withA (v : Byte) (s : State) : State := s.setReg .a v
def withB (v : Byte) (s : State) : State := s.setReg .b v
def withC (v : Byte) (s : State) : State := s.setReg .c v
def withSp (v : Addr) (s : State) : State := { s with sp := v }
def withFlags (z n h c : Bool) (s : State) : State := { s with flags := { z := z, n := n, h := h, c := c } }

/-- The next state of a step satisfies a test. -/
def after (s : State) (p : State → Bool) : Bool :=
  match step s with
  | .next t => p t
  | .fault _ => false
  | .refused _ => false

/-- The step ends with this fault record, and `pc` and `ticks` are as before. -/
def faults (s : State) (k : FaultKind) (pc : Addr) (op : Byte) : Bool :=
  after s fun t => decide (t = { s with run := .faulted k pc op })

/-- `pc` and `ticks`. -/
def at_ (pc : Addr) (ticks : Nat) (t : State) : Bool := decide (t.pc = pc) && decide (t.ticks = ticks) && decide (t.run = .running)

/-- The flags `Z N H C`. -/
def flagsAre (z n h c : Bool) (t : State) : Bool := decide (t.flags = { z := z, n := n, h := h, c := c })

/-! ### The loop's instructions -/

/-- V-MISC-1. -/
theorem test_nop : after (start [0x00]) (at_ 0x0101 4) = true := by decide

/-- V-MISC-4. -/
theorem test_nop_wraps : after (startAt 0xFFFF [0x00]) (at_ 0x0000 4) = true := by decide

/-- V-MISC-2. -/
theorem test_di : after (withFlags true true true true (start [0xF3])) (fun t => at_ 0x0101 4 t && flagsAre true true true true t) = true := by decide

/-- V-MISC-3. -/
theorem test_halt : faults (start [0x76]) .haltEncountered 0x0100 0x76 = true := by decide

/-- V-FLT-11. -/
theorem test_halt_at_top : faults (startAt 0xFFFF [0x76]) .haltEncountered 0xFFFF 0x76 = true := by decide

/-! ### Register transfer -/

/-- V-LD-1. -/
theorem test_ld_b_c : after (withB 0x01 (withC 0x02 (start [0x41]))) (fun t => decide (t.regs.b = 0x02) && at_ 0x0101 4 t) = true := by decide

/-- V-LD-3. -/
theorem test_ld_h_at_hl : after (withByte 0xC000 0x12 (withHl 0xC000 (start [0x66]))) (fun t => decide (t.regs.h = 0x12) && decide (t.regs.l = 0x00) && at_ 0x0101 8 t) = true := by decide

/-- V-LD-4. -/
theorem test_ld_l_at_hl : after (withByte 0xC0FF 0x34 (withHl 0xC0FF (start [0x6E]))) (fun t => decide (t.regs.l = 0x34) && decide (t.regs.h = 0xC0)) = true := by decide

/-- V-LD-5. -/
theorem test_ld_b_at_hl : after (withHl 0x0100 (start [0x46])) (fun t => decide (t.regs.b = 0x46)) = true := by decide

/-- V-LD-7. -/
theorem test_ld_a_at_hl_reads_io : after (withHl 0xFF7F { start [0x7E] with mem := [(0x0100, 0x7E), (0xFF7F, 0x11)], io := [(0x7F, 0x22)] }) (fun t => decide (t.regs.a = 0x22)) = true := by decide

/-- V-LD-8. -/
theorem test_ld_at_hl_h : after (withHl 0xC0DE (start [0x74])) (fun t => decide (t.memRead 0xC0DE = 0xC0)) = true := by decide

/-- V-LD-9. -/
theorem test_ld_at_hl_l : after (withHl 0xC0DE (start [0x75])) (fun t => decide (t.memRead 0xC0DE = 0xDE)) = true := by decide

/-- V-LD-10 to V-LD-21, the stores that complete. -/
theorem test_ld_at_hl_a :
    ([0x0000, 0x00FF, 0x8000, 0xFEFF, 0xFF00, 0xFF7F, 0xFF80, 0xFFFF] : List Addr).all (fun a =>
      after (withA 0x5A (withHl a (start [0x77]))) (fun t => decide (t.memRead a = 0x5A) && at_ 0x0101 8 t)) = true := by decide

/-- V-LD-19: the byte goes to `io`, `mem` keeps its own. -/
theorem test_ld_at_hl_a_io : after (withA 0x5A (withHl 0xFF7F (start [0x77]))) (fun t => decide (t.io = [(0x7F, 0x5A)]) && decide (t.mem = [(0x0100, 0x77)])) = true := by decide

/-- V-LD-12 to V-LD-15. -/
theorem test_ld_at_hl_a_protected :
    ([0x0100, 0x3FFF, 0x4000, 0x7FFF] : List Addr).all (fun a =>
      faults (withA 0x5A (withHl a (start [0x77]))) .readOnlyViolation 0x0100 0x77) = true := by decide

/-- V-LD-22. -/
theorem test_ld_b_n8 : after (start [0x06, 0xAB]) (fun t => decide (t.regs.b = 0xAB) && at_ 0x0102 8 t) = true := by decide

/-- V-LD-23. -/
theorem test_ld_c_n8 : after (start [0x0E, 0xAB]) (fun t => decide (t.regs.c = 0xAB) && at_ 0x0102 8 t) = true := by decide

/-- V-LD-24. -/
theorem test_ld_d_n8 : after (start [0x16, 0xAB]) (fun t => decide (t.regs.d = 0xAB) && at_ 0x0102 8 t) = true := by decide

/-- V-LD-25. -/
theorem test_ld_e_n8 : after (start [0x1E, 0xAB]) (fun t => decide (t.regs.e = 0xAB) && at_ 0x0102 8 t) = true := by decide

/-- V-LD-26. -/
theorem test_ld_h_n8 : after (start [0x26, 0xAB]) (fun t => decide (t.regs.h = 0xAB) && at_ 0x0102 8 t) = true := by decide

/-- V-LD-27. -/
theorem test_ld_l_n8 : after (start [0x2E, 0xAB]) (fun t => decide (t.regs.l = 0xAB) && at_ 0x0102 8 t) = true := by decide

/-- V-LD-28. -/
theorem test_ld_a_n8 : after (start [0x3E, 0xAB]) (fun t => decide (t.regs.a = 0xAB) && at_ 0x0102 8 t) = true := by decide

/-- V-LD-29. -/
theorem test_ld_at_hl_n8 : faults (withHl 0xC000 (start [0x36, 0xAB])) .invalidRegisterAccess 0x0100 0x36 = true := by decide

/-- V-LD-30. -/
theorem test_ld_bc_n16 : after (start [0x01, 0x34, 0x12]) (fun t => decide (t.regs.b = 0x12) && decide (t.regs.c = 0x34) && at_ 0x0103 12 t) = true := by decide

/-- V-LD-31. -/
theorem test_ld_de_n16 : after (start [0x11, 0x34, 0x12]) (fun t => decide (t.regs.d = 0x12) && decide (t.regs.e = 0x34) && at_ 0x0103 12 t) = true := by decide

/-- V-LD-32. -/
theorem test_ld_hl_n16 : after (start [0x21, 0x34, 0x12]) (fun t => decide (t.regs.h = 0x12) && decide (t.regs.l = 0x34) && at_ 0x0103 12 t) = true := by decide

/-- V-LD-33. -/
theorem test_ld_sp_n16 : after (start [0x31, 0x34, 0x12]) (fun t => decide (t.sp = 0x1234) && at_ 0x0103 12 t) = true := by decide

/-- V-HL-1. -/
theorem test_ld_hl_inc_a : after (withA 0x5A (withHl 0xC000 (start [0x22]))) (fun t => decide (t.memRead 0xC000 = 0x5A) && decide (t.hl = 0xC001) && at_ 0x0101 8 t) = true := by decide

/-- V-HL-2. -/
theorem test_ld_hl_inc_a_wraps : after (withA 0x5A (withHl 0xFFFF (start [0x22]))) (fun t => decide (t.memRead 0xFFFF = 0x5A) && decide (t.hl = 0x0000)) = true := by decide

/-- V-HL-4. -/
theorem test_ld_hl_inc_a_protected : faults (withA 0x5A (withHl 0x0150 (start [0x22]))) .readOnlyViolation 0x0100 0x22 = true := by decide

/-- V-HL-6. -/
theorem test_ld_hl_dec_a : after (withA 0x5A (withHl 0x0000 (start [0x32]))) (fun t => decide (t.memRead 0x0000 = 0x5A) && decide (t.hl = 0xFFFF) && at_ 0x0101 8 t) = true := by decide

/-- V-HL-8. -/
theorem test_ld_a_hl_inc : after (withByte 0xC000 0x11 (withHl 0xC000 (start [0x2A]))) (fun t => decide (t.regs.a = 0x11) && decide (t.hl = 0xC001) && at_ 0x0101 8 t) = true := by decide

/-- V-HL-12. -/
theorem test_ld_a_hl_dec : after (withByte 0xC000 0x11 (withHl 0xC000 (start [0x3A]))) (fun t => decide (t.regs.a = 0x11) && decide (t.hl = 0xBFFF) && at_ 0x0101 8 t) = true := by decide

/-- V-ABS-4. -/
theorem test_ld_at_n16_a : after (withA 0x5A (start [0xEA, 0x00, 0x80])) (fun t => decide (t.memRead 0x8000 = 0x5A) && at_ 0x0103 16 t) = true := by decide

/-- V-ABS-3. -/
theorem test_ld_at_n16_a_protected : faults (withA 0x5A (start [0xEA, 0xFF, 0x7F])) .readOnlyViolation 0x0100 0xEA = true := by decide

/-- V-HP-2. -/
theorem test_ldh_at_n8_a : after (withA 0x5A (start [0xE0, 0x7F])) (fun t => decide (t.io = [(0x7F, 0x5A)]) && at_ 0x0102 12 t) = true := by decide

/-- V-HP-3. -/
theorem test_ldh_at_n8_a_above_window : after (withA 0x5A (start [0xE0, 0x80])) (fun t => decide (t.io = []) && decide (t.memRead 0xFF80 = 0x5A)) = true := by decide

/-- V-HP-5. -/
theorem test_ldh_a_at_n8 : after { start [0xF0, 0x10] with mem := [(0x0100, 0xF0), (0x0101, 0x10), (0xFF10, 0x11)], io := [(0x10, 0x22)] } (fun t => decide (t.regs.a = 0x22) && at_ 0x0102 12 t) = true := by decide

/-- V-HP-11. -/
theorem test_ld_at_c_a : after (withA 0x5A (withC 0x80 (start [0xE2, 0x76]))) (fun t => decide (t.memRead 0xFF80 = 0x5A) && at_ 0x0102 8 t) = true := by decide

/-- V-HP-15. -/
theorem test_ld_at_c_a_at_top : after (startAt 0xFFFF [0xE2]) (at_ 0x0001 8) = true := by decide

/-- V-HP-13. -/
theorem test_ld_a_at_c : after (withByte 0xFF7F 0x22 (withC 0x7F (start [0xF2, 0x76]))) (fun t => decide (t.regs.a = 0x22) && at_ 0x0102 8 t) = true := by decide

/-! ### The arithmetic/logic unit -/

/-- Section 2.3, row 0x3A 0xC6: flags set before are overwritten. -/
theorem test_add_half_and_carry : after (withFlags true true true true (withA 0x3A (withB 0xC6 (start [0x80])))) (fun t => decide (t.regs.a = 0x00) && flagsAre true false true true t && at_ 0x0101 4 t) = true := by decide

/-- Row 0xF0 0x20. -/
theorem test_add_carry_only : after (withFlags true true true true (withA 0xF0 (withB 0x20 (start [0x80])))) (fun t => decide (t.regs.a = 0x10) && flagsAre false false false true t && at_ 0x0101 4 t) = true := by decide

/-- Row 0xF0 0x0F. -/
theorem test_and : after (withFlags true true true true (withA 0xF0 (withB 0x0F (start [0xA0])))) (fun t => decide (t.regs.a = 0x00) && flagsAre true false true false t && at_ 0x0101 4 t) = true := by decide

/-- X7. -/
theorem test_and_nonzero : after (withFlags true true true true (withA 0x0F (withB 0x0F (start [0xA0])))) (fun t => decide (t.regs.a = 0x0F) && flagsAre false false true false t && at_ 0x0101 4 t) = true := by decide

/-- Row 0x3A 0xC6. -/
theorem test_xor : after (withFlags true true true true (withA 0x3A (withB 0xC6 (start [0xA8])))) (fun t => decide (t.regs.a = 0xFC) && flagsAre false false false false t && at_ 0x0101 4 t) = true := by decide

/-- Row 0xFF 0xFF. -/
theorem test_xor_zero : after (withFlags true true true true (withA 0xFF (withB 0xFF (start [0xA8])))) (fun t => decide (t.regs.a = 0x00) && flagsAre true false false false t && at_ 0x0101 4 t) = true := by decide

/-- Row 0xA5 0x5A. -/
theorem test_or : after (withFlags true true true true (withA 0xA5 (withB 0x5A (start [0xB0])))) (fun t => decide (t.regs.a = 0xFF) && flagsAre false false false false t && at_ 0x0101 4 t) = true := by decide

/-- Row 0x00 0x00. -/
theorem test_or_zero : after (withFlags true true true true (withA 0x00 (withB 0x00 (start [0xB0])))) (fun t => decide (t.regs.a = 0x00) && flagsAre true false false false t && at_ 0x0101 4 t) = true := by decide

/-- The `(HL)` table of section 2.3, row 0x0150. -/
theorem test_add_at_hl : after (withA 0x11 (withByte 0x0150 0xF0 (withHl 0x0150 (start [0x86])))) (fun t => decide (t.regs.a = 0x01) && flagsAre false false false true t && at_ 0x0101 8 t) = true := by decide

/-- The `(HL)` table of section 2.3, row 0x0150. -/
theorem test_and_at_hl : after (withA 0x11 (withByte 0x0150 0xF0 (withHl 0x0150 (start [0xA6])))) (fun t => decide (t.regs.a = 0x10) && flagsAre false false true false t && at_ 0x0101 8 t) = true := by decide

/-- The `(HL)` table of section 2.3, row 0x0150. -/
theorem test_xor_at_hl : after (withA 0x11 (withByte 0x0150 0xF0 (withHl 0x0150 (start [0xAE])))) (fun t => decide (t.regs.a = 0xE1) && flagsAre false false false false t && at_ 0x0101 8 t) = true := by decide

/-- The `(HL)` table of section 2.3, row 0x0150. -/
theorem test_or_at_hl : after (withA 0x11 (withByte 0x0150 0xF0 (withHl 0x0150 (start [0xB6])))) (fun t => decide (t.regs.a = 0xF1) && flagsAre false false false false t && at_ 0x0101 8 t) = true := by decide

/-- `DEC B`, row 0x10: the only case with H clear, C kept. -/
theorem test_dec_b_to_0f : after (withFlags true true true true (withB 0x10 (start [0x05]))) (fun t => decide (t.regs.b = 0x0F) && flagsAre false true false true t && at_ 0x0101 4 t) = true := by decide

/-- Row 0x00. -/
theorem test_dec_b_wraps : after (withB 0x00 (start [0x05])) (fun t => decide (t.regs.b = 0xFF) && flagsAre false true true false t) = true := by decide

/-- V-DEC-1. -/
theorem test_dec_h : after (withHl 0xC010 (start [0x25])) (fun t => decide (t.regs.h = 0xBF) && decide (t.regs.l = 0x10) && flagsAre false true true false t) = true := by decide

/-- V-DEC-2. -/
theorem test_dec_l : after (withHl 0xC010 (start [0x2D])) (fun t => decide (t.regs.l = 0x0F) && decide (t.regs.h = 0xC0) && flagsAre false true false false t) = true := by decide

/-- V-DEC-3. -/
theorem test_dec_at_hl : faults (withByte 0xC010 0x05 (withHl 0xC010 (start [0x35]))) .invalidRegisterAccess 0x0100 0x35 = true := by decide

/-! ### Control flow -/

/-- V-JP-1. -/
theorem test_jp : after (start [0xC3, 0x50, 0x01]) (at_ 0x0150 16) = true := by decide

/-- V-JP-4. -/
theorem test_jp_at_top : after (startAt 0xFFFD [0xC3, 0x34, 0x12]) (at_ 0x1234 16) = true := by decide

/-- `JP NZ,r8`, row 0x0100 0xFC. -/
theorem test_jp_nz_back : after (start [0x20, 0xFC]) (at_ 0x00FE 12) = true := by decide

/-- Row 0x0001 0x80. -/
theorem test_jp_nz_wraps : after (startAt 0x0001 [0x20, 0x80]) (at_ 0xFF83 12) = true := by decide

/-- Row 0x0100 0x05 with `F.z` set. -/
theorem test_jp_nz_not_taken : after (withFlags true false false false (start [0x20, 0x05])) (at_ 0x0102 8) = true := by decide

/-- X8. -/
theorem test_call : after (withSp 0xFFFE (start [0xCD, 0x00, 0x02])) (fun t => decide (t.memRead 0xFFFD = 0x03) && decide (t.memRead 0xFFFC = 0x01) && decide (t.sp = 0xFFFC) && at_ 0x0200 24 t) = true := by decide

/-- Row `sp` 0xFF81. -/
theorem test_call_into_window : after (withSp 0xFF81 (start [0xCD, 0x00, 0x02])) (fun t => decide (t.memRead 0xFF80 = 0x03) && decide (t.io = [(0x7F, 0x01)])) = true := by decide

/-- The rows that fault. -/
theorem test_call_protected :
    ([0x8001, 0x8000, 0x0102, 0x0101] : List Addr).all (fun v =>
      faults (withSp v (start [0xCD, 0x00, 0x02])) .readOnlyViolation 0x0100 0xCD) = true := by decide

/-- `RET NC`, row 0xC000. -/
theorem test_ret_nc : after (withByte 0xC000 0xAB (withByte 0xC001 0xCD (withSp 0xC000 (start [0xD0])))) (fun t => decide (t.sp = 0xC002) && at_ 0xABCD 20 t) = true := by decide

/-- Row 0xFFF1 with `F.c` set. -/
theorem test_ret_nc_not_taken : after (withFlags false false false true (withSp 0xFFF1 (start [0xD0]))) (fun t => decide (t.sp = 0xFFF1) && at_ 0x0101 8 t) = true := by decide

/-! ### Faults, their priority, and fetch -/

/-- V-FLT-1. -/
theorem test_truncated_one : faults (startAt 0xFFFF [0x3E]) .truncatedInstruction 0xFFFF 0x3E = true := by decide

/-- V-FLT-2. -/
theorem test_not_truncated_one : after (startAt 0xFFFE [0x3E, 0x77]) (fun t => decide (t.regs.a = 0x77) && at_ 0x0000 8 t) = true := by decide

/-- V-FLT-3. -/
theorem test_truncated_two : faults (startAt 0xFFFE [0xC3, 0x00]) .truncatedInstruction 0xFFFE 0xC3 = true := by decide

/-- V-FLT-5. -/
theorem test_truncated_before_invalid : faults (startAt 0xFFFF [0x36]) .truncatedInstruction 0xFFFF 0x36 = true := by decide

/-- V-FLT-13. -/
theorem test_truncated_call : faults (startAt 0xFFFF [0xCD]) .truncatedInstruction 0xFFFF 0xCD = true := by decide

/-- V-FLT-10. -/
theorem test_unimplemented : faults (startAt 0xFFFF [0xD3]) .unimplementedOpcode 0xFFFF 0xD3 = true := by decide

/-- V-IOF-2. -/
theorem test_fetch_from_window : after (startAt 0xFF7F [0x3E, 0x42]) (fun t => decide (t.regs.a = 0x42) && at_ 0xFF81 8 t) = true := by decide

/-- V-IOF-3. -/
theorem test_fetch_three_from_window : after (startAt 0xFF7E [0xC3, 0x34, 0x12]) (at_ 0x1234 16) = true := by decide

/-- A table word placed after reset runs as the next instruction (log 26). -/
theorem test_withFetchWord : after (State.reset.withFetchWord 24 0x0150C3) (at_ 0x0150 16) = true ∧ after (State.reset.withFetchWord 8 0x41) (at_ 0x0101 4) = true := by
  decide

/-- V-FLT-20: a faulted core does not step. -/
theorem test_faulted_does_not_step :
    (step { start [0x00] with run := .faulted .haltEncountered 0x0100 0x76 } matches .fault (.stopped .haltEncountered 0x0100 0x76)) = true := by decide

/-! ### Memory, the loader and the outputs -/

/-- Writing 0x00 removes the cell, so equal memories are equal data. -/
theorem test_memory_canonical :
    ((Memory.write [] 5 0x11).write 3 0x22).write 5 0x00 = [(3, 0x22)] ∧ Memory.wf 0x10000 [(3, 0x22), (5, 0x11)] = true ∧
      Memory.wf 0x10000 [(5, 0x11), (3, 0x22)] = false ∧ Memory.wf 0x10000 [(3, 0x00)] = false ∧ Memory.wf 0x80 [(0x80, 0x11)] = false := by decide

/-- R152: image byte 0 goes to address 0, bytes past the array are dropped. -/
theorem test_loader : (State.resetWithImage [0xAA, 0x00, 0xBB]).mem = [(0, 0xAA), (2, 0xBB)] ∧ Memory.load [] 0xFFFF [0x11, 0x22] = [(0xFFFF, 0x11)] := by
  decide

/-- R31: `CALL` reads its three bytes, then writes the low byte and the high byte of the return address. -/
theorem test_call_accesses : (start [0xCD, 0x00, 0x02]).cycleAccesses =
    [.read 0x0100 0xCD, .read 0x0101 0x00, .read 0x0102 0x02, .write 0xFFF2 0x03, .write 0xFFF1 0x01] := by decide

/-- R147: one event for a store in the window, none for a faulting cycle's store. -/
theorem test_io_events : (withA 0x5A (start [0xE0, 0x10])).ioEvents = [.write 0xFF10 0x5A] ∧ (withHl 0x0150 (start [0x77])).ioEvents = [] := by decide

/-! ## Witnesses: concrete states and operands that meet the hypotheses of each statement -/

theorem witness_loader : ([0xAB, 0xCD] : List Byte)[1]? = some 0xCD ∧ ([0xAB, 0xCD] : List Byte)[2]? = none ∧ 1 < 0x10000 := by decide

/-- The last byte of a full image. -/
theorem witness_loader_last : (List.replicate 65536 (0xAB : Byte))[65535]? = some 0xAB := by
  rw [List.getElem?_replicate, if_pos (by omega)]

theorem witness_register_codes : (6 : Code) = 6 ∧ (5 : Code) ≠ 6 ∧ (7 : Code) ≠ 6 ∧ Reg.b ≠ Reg.c := by decide

theorem witness_hl_other_register : Reg.a ≠ Reg.h ∧ Reg.a ≠ Reg.l := by decide

/-- The clauses about an address, at both sides of each boundary: protected, in the window, neither. -/
theorem witness_address_regions :
    (0x0100 ≤ (0x0100 : Addr).toNat ∧ (0x0100 : Addr).toNat ≤ 0x7FFF) ∧ (0x0100 ≤ (0x7FFF : Addr).toNat ∧ (0x7FFF : Addr).toNat ≤ 0x7FFF) ∧
      (0x00FF : Addr).toNat < 0x0100 ∧ 0x7FFF < (0x8000 : Addr).toNat ∧
      (0xFF00 ≤ (0xFF00 : Addr).toNat ∧ (0xFF00 : Addr).toNat ≤ 0xFF7F ∧ 0 + 0xFF00 = (0xFF00 : Addr).toNat) ∧
      (0xFF00 ≤ (0xFF7F : Addr).toNat ∧ (0xFF7F : Addr).toNat ≤ 0xFF7F ∧ 0x7F + 0xFF00 = (0xFF7F : Addr).toNat) ∧
      (0xFEFF : Addr).toNat < 0xFF00 ∧ 0xFF7F < (0xFF80 : Addr).toNat := by decide

/-- `sp` where the push of `PopInvertsPush` and of `CALL` faults, at both ends of 0x0101 to 0x8001. -/
theorem witness_push_faults :
    ([0x0101, 0x0102, 0x8000, 0x8001] : List Addr).all (fun v => isProtected (v - 1#16) || isProtected (v - 2#16)) = true ∧
      (0x0101 ≤ (withSp 0x0101 (start [])).sp.toNat ∧ (withSp 0x8001 (start [])).sp.toNat ≤ 0x8001) := by decide

/-- `sp` just outside that range, and at the wrap. -/
theorem witness_push_completes :
    ([0x0100, 0x8002, 0x0000, 0x0001, 0xFFF3] : List Addr).all (fun v => !isProtected (v - 1#16) && !isProtected (v - 2#16)) = true ∧
      (withSp 0x0100 (start [])).sp.toNat < 0x0101 ∧ 0x8001 < (withSp 0x8002 (start [])).sp.toNat := by decide

theorem witness_halt : (start [0x76]).run = .running ∧ (start [0x76]).memRead (start [0x76]).pc = 0x76 := by decide

theorem witness_unimplemented : isUnimplemented 0xC9 = true ∧ (start [0xC9]).run = .running ∧ (start [0xC9]).memRead (start [0xC9]).pc = 0xC9 := by decide

/-- `HL` in the protected range and outside, at the edges (StoreRegisterAtHl, StoreAThenStepHl). -/
theorem witness_store_at_hl :
    (0x0100 ≤ (withHl 0x0100 (start [])).hl.toNat ∧ (withHl 0x0100 (start [])).hl.toNat ≤ 0x7FFF) ∧
      (0x0100 ≤ (withHl 0x7FFF (start [])).hl.toNat ∧ (withHl 0x7FFF (start [])).hl.toNat ≤ 0x7FFF) ∧
      (withHl 0x00FF (start [])).hl.toNat < 0x0100 ∧ 0x7FFF < (withHl 0x8000 (start [])).hl.toNat := by decide

/-- A destination register and another one (LoadRegisterFromRegister, LoadRegisterFromHl, LoadRegisterImmediate, DecrementRegister). -/
theorem witness_other_register : Reg.a ≠ Reg.b ∧ Reg.h ≠ Reg.l := by decide

theorem witness_load_pair : (0x1234 : Addr).toNat = (0x12 : Byte).toNat * 256 + (0x34 : Byte).toNat ∧
    (0xFFFF : Addr).toNat = (0xFF : Byte).toNat * 256 + (0xFF : Byte).toNat := by decide

/-- The offsets at the edges of the window and of the byte (HighPageImmediateStoreAndLoad, StoreAThroughC, LoadAThroughC). -/
theorem witness_high_page :
    (0xFF00 : Addr).toNat = 0xFF00 + (0x00 : Byte).toNat ∧ (0xFF7F : Addr).toNat = 0xFF00 + (0x7F : Byte).toNat ∧
      (0xFF80 : Addr).toNat = 0xFF00 + (0x80 : Byte).toNat ∧
      (0xFFFF : Addr).toNat = 0xFF00 + ((withC 0xFF (start [])).getReg .c).toNat := by decide

/-- Both kinds of operand of an accumulator operation. -/
theorem witness_alu_operand :
    (∃ r : Reg, Operand.reg .b = .reg r ∧ (0x3A : Byte) = (withB 0x3A (start [])).getReg r ∧ 4 = 4) ∧
      (Operand.atHl = .atHl ∧ (0x76 : Byte) = (withHl 0x0100 (start [0x76])).memRead (withHl 0x0100 (start [0x76])).hl ∧ 8 = 8) :=
  ⟨⟨.b, by decide⟩, by decide⟩

/-- Both values of each condition. -/
theorem witness_conditions :
    (start []).flags.z = false ∧ (withFlags true false false false (start [])).flags.z = true ∧ (start []).flags.c = false ∧
      (withFlags false false false true (start [])).flags.c = true := by decide

/-- A call that completes with carry clear. -/
theorem witness_return_after_call :
    ∃ t : State, exec (.callN16 0x0200) (start []) = .next t ∧ t.run = .running ∧ (start []).flags.c = false := ⟨_, rfl, by decide⟩

theorem witness_decodeInvertsEncode : WellFormed (.ldAtN16A 0xC000) = true ∧ WellFormed (.unimplemented 0xFF) = true := by decide

theorem witness_encodeInvertsDecode : decode [0xCD, 0x00, 0x02, 0x76] = .ok (.callN16 0x0200, [0x76]) := rfl

theorem witness_opcodeMap : isUnimplemented 0x02 = true ∧ isUnimplemented 0x01 = false := by decide

/-- The bytes at `pc` are the encoding of an instruction, at the last place where one of three bytes fits. -/
theorem witness_step_by_encoding :
    (startAt 0xFFFD [0xC3, 0x34, 0x12]).run = .running ∧ WellFormed (.jpN16 0x1234) = true ∧
      (startAt 0xFFFD [0xC3, 0x34, 0x12]).pc.toNat + (encode (.jpN16 0x1234)).length ≤ 0x10000 ∧
      ∀ (j : Nat) (v : Byte), (encode (.jpN16 0x1234))[j]? = some v →
        (startAt 0xFFFD [0xC3, 0x34, 0x12]).memRead ((startAt 0xFFFD [0xC3, 0x34, 0x12]).pc + BitVec.ofNat 16 j) = v :=
  ⟨by decide, by decide, by decide, fun j v h =>
    match j, h with
    | 0, h => Option.some.inj h
    | 1, h => Option.some.inj h
    | 2, h => Option.some.inj h
    | _ + 3, h => nomatch h⟩

theorem witness_step_by_decoding :
    (start [0x3E, 0xAB]).run = .running ∧ (start [0x3E, 0xAB]).pc.toNat + operandBytes ((start [0x3E, 0xAB]).memRead (start [0x3E, 0xAB]).pc) ≤ 0xFFFF ∧
      decode [(start [0x3E, 0xAB]).memRead (start [0x3E, 0xAB]).pc, (start [0x3E, 0xAB]).memRead ((start [0x3E, 0xAB]).pc + 1#16),
        (start [0x3E, 0xAB]).memRead ((start [0x3E, 0xAB]).pc + 2#16)] = .ok (.ldAN8 0xAB, [0x00]) :=
  ⟨by decide, by decide, rfl⟩

/-- One operand byte that does not remain, two that do not, and a fetch that just fits. -/
theorem witness_truncation :
    0xFFFF < (startAt 0xFFFF [0x3E]).pc.toNat + operandBytes ((startAt 0xFFFF [0x3E]).memRead (startAt 0xFFFF [0x3E]).pc) ∧
      0xFFFF < (startAt 0xFFFE [0xC3]).pc.toNat + operandBytes ((startAt 0xFFFE [0xC3]).memRead (startAt 0xFFFE [0xC3]).pc) ∧
      (startAt 0xFFFF [0xE2]).pc.toNat + operandBytes ((startAt 0xFFFF [0xE2]).memRead (startAt 0xFFFF [0xE2]).pc) ≤ 0xFFFF ∧
      (startAt 0xFFFF [0x3E]).run = .running := by decide

theorem witness_not_truncated_steps : ∃ t : State, step (startAt 0xFFFF [0xE2]) = .next t := ⟨_, rfl⟩

theorem witness_running : State.reset.run = .running := rfl

theorem witness_faulted : { State.reset with run := .faulted .haltEncountered 0x0100 0x76 }.run = Run.faulted .haltEncountered 0x0100 0x76 := rfl

/-- A step that completes, for the statements about a step that answers a next state. -/
theorem witness_completing_step : ∃ t : State, step (start [0xE0, 0x10]) = .next t ∧ t.run = .running := ⟨_, rfl, by decide⟩

/-- A step that faults. -/
theorem witness_faulting_step : ∃ t : State, step (start [0x76]) = .next t ∧ t.run ≠ .running := ⟨_, rfl, by decide⟩

/-- An instruction that raises nothing in a state, and one that raises a fault there. -/
theorem witness_raisesIn :
    raisesIn .ldAtHlA (withHl 0x8000 (start [])) = none ∧ raisesIn .ldAtHlA (withHl 0x7FFF (start [])) = some .readOnlyViolation := by decide

/-- Stored bytes in the window only, outside it only, and none; an address not stored to. -/
theorem witness_storedAddrs :
    storedAddrs (.ldhAtN8A 0x7F) (start []) = [0xFF7F] ∧ inWindow 0xFF7F = true ∧ storedAddrs (.ldhAtN8A 0x80) (start []) = [0xFF80] ∧
      inWindow 0xFF80 = false ∧ storedAddrs .addAB (start []) = [] ∧ (0xFF00 : Addr) ∉ ([0xFF7F] : List Addr) := by decide

theorem witness_exec_next : ∃ t : State, exec (.ldhAtN8A 0x7F) (start []) = .next t := ⟨_, rfl⟩

theorem witness_registers_and_sp : Reg.b ∉ writtenRegs (Form.decReg .c) ∧ writesSp .retNc (withFlags false false false true (start [])) = false := by decide

/-- `ADD` that sets a clear carry. -/
theorem witness_carry_set :
    ∃ t : State, exec .addAB (withA 0xFF (withB 0x01 State.reset)) = .next t ∧ t.flags.c = true ∧ State.reset.flags.c = false := ⟨_, rfl, rfl, rfl⟩

theorem witness_dec_form : Instr.form .decC = .decReg .c := rfl

theorem witness_initMem : Memory.wf 0x10000 [(0x0100, 0x76)] = true ∧ Memory.wf 0x10000 [] = true := by decide

/-- The invariant holds of a state whose next step exists, and of a faulted one. -/
theorem witness_invariant :
    (start [0x76]).Inv ∧ { start [0x76] with run := .faulted .haltEncountered 0x0100 0x76 }.Inv ∧ ∃ t : State, step (start [0x76]) = .next t :=
  ⟨⟨by decide, by decide⟩, ⟨by decide, by decide⟩, _, rfl⟩

/-- Two different states that agree off the shadowed bytes. -/
theorem witness_agreeOffShadow : AgreeOffShadow (start [0x00]) { start [0x00] with mem := (start [0x00]).mem.write 0xFF10 0x44 } := by
  refine ⟨rfl, rfl, rfl, rfl, rfl, rfl, rfl, fun a h => ?_⟩
  have ne : a.toNat ≠ 0xFF10 := by
    intro e
    simp [inWindow, e] at h
  exact (Memory.read_write_other (start [0x00]).mem 0x44 ne).symm

theorem witness_agreeOffNH : AgreeOffNH (start [0x05]) (withFlags false true true false (start [0x05])) := ⟨rfl, rfl, rfl, rfl, rfl, rfl, rfl, rfl, rfl⟩

theorem witness_store_next_fetch :
    (withA 0x76 (withHl 0xC001 (startAt 0xC000 [0x77]))).hl = (withA 0x76 (withHl 0xC001 (startAt 0xC000 [0x77]))).pc + 1#16 ∧
      ∃ t : State, exec .ldAtHlA (withA 0x76 (withHl 0xC001 (startAt 0xC000 [0x77]))) = .next t ∧ t.run = .running :=
  ⟨by decide, _, rfl, by decide⟩

/-- A call to its own upper stack byte: the byte stored at the new `pc` is the next opcode. -/
theorem witness_store_next_fetch_call :
    ∃ t : State, exec (.callN16 0xCFFE) (withSp 0xD000 (start [])) = .next t ∧ t.run = .running ∧
      (0xCFFE : Addr) ∈ storedAddrs (.callN16 0xCFFE) (withSp 0xD000 (start [])) ∧
      Access.write t.pc 0x01 ∈ formAccesses (Instr.form (.callN16 0xCFFE)) (withSp 0xD000 (start [])) :=
  ⟨_, rfl, by decide, by decide, by decide⟩

/-- `LDH (n8),A` from 0xFF0E stores at the new `pc`, in the I/O window. -/
theorem witness_store_next_fetch_window :
    ∃ t : State, exec (.ldhAtN8A 0x10) (withA 0x76 (startAt 0xFF0E [])) = .next t ∧ t.run = .running ∧
      Access.write t.pc 0x76 ∈ formAccesses (Instr.form (.ldhAtN8A 0x10)) (withA 0x76 (startAt 0xFF0E [])) :=
  ⟨_, rfl, by decide, by decide⟩

/-- A byte of the window that a step changes. -/
theorem witness_window_change :
    ∃ t : State, step (withA 0x5A (start [0xE0, 0x10])) = .next t ∧ inWindow 0xFF10 = true ∧
      t.memRead 0xFF10 ≠ (withA 0x5A (start [0xE0, 0x10])).memRead 0xFF10 := ⟨_, rfl, by decide⟩

end Sys2Proof.Tests
end

/-! PROOFS. The register file by code (spec/10_state.md R12, R13). -/

namespace Sys2Proof.Proofs.RegisterFile

open Sys2Proof.Machine

/-- R12's table names each of the eight codes once: the code of what a code names is that code again. -/
@[simp] theorem code_operandOfCode (c : Code) : (operandOfCode c).code = c := by
  revert c
  decide

/-- Every code but 6 names a register, and is that register's code. -/
theorem operandOfCode_eq_reg {c : Code} (hc : c ≠ 6) : ∃ r : Reg, operandOfCode c = .reg r ∧ r.code = c := by
  have hcode := code_operandOfCode c
  cases ho : operandOfCode c with
  | reg r => exact ⟨r, rfl, by rwa [ho] at hcode⟩
  | atHl => exact absurd (by rwa [ho] at hcode) hc.symm

@[simp] theorem getCode_reg (s : State) (r : Reg) : s.getCode (.reg r) = .ok (s.getReg r) := rfl
@[simp] theorem getCode_atHl (s : State) : s.getCode .atHl = .error .invalidRegisterAccess := rfl
@[simp] theorem setCode_reg (s : State) (r : Reg) (v : Byte) : s.setCode (.reg r) v = .ok (s.setReg r v) := rfl
@[simp] theorem setCode_atHl (s : State) (v : Byte) : s.setCode .atHl v = .error .invalidRegisterAccess := rfl

/-- Settles O3: code 6 names `(HL)`, which `getCode` and `setCode` refuse; any other code names a register, and the write is `setReg`, whose
frame the laws of State give. -/
theorem registerAccessByCode : Obligations.RegisterAccessByCode := by
  intro s c
  constructor
  · rintro rfl
    exact ⟨getCode_atHl s, setCode_atHl s⟩
  · intro hc
    obtain ⟨r, ho, hr⟩ := operandOfCode_eq_reg hc
    rw [ho]
    refine ⟨r, rfl, hr, getCode_reg s r, fun v => ⟨s.setReg r v, setCode_reg s r v, getReg_setReg_same s r v, ?_⟩⟩
    exact ⟨fun _ hq => getReg_setReg_other s v hq, setReg_flags s r v, setReg_pc s r v, setReg_sp s r v, setReg_ticks s r v,
      setReg_mem s r v, setReg_io s r v, setReg_run s r v⟩

end Sys2Proof.Proofs.RegisterFile

/-! PROOFS. The instructions the loop handles itself (spec/40_dispatch_and_misc.md R70, R72, R73): what their cycles answer, and how a step reaches
an instruction of one byte. -/

namespace Sys2Proof.Proofs.Dispatch

open Sys2Proof.Machine

/-! ## How a cycle ends, as a next state -/

theorem advance_eq_next (n : Addr) (cost : Nat) (s : State) :
    advance n cost s = .next { s with pc := s.pc + n, ticks := s.ticks + cost } := rfl

theorem raise_eq_next (k : FaultKind) (op : Byte) (s : State) :
    raise k op s = .next { s with run := .faulted k s.pc op } := rfl

/-! ## The meanings -/

theorem exec_nop (s : State) : exec .nop s = advance 1#16 4 s := exec_eq_execForm .nop s

theorem exec_halt (s : State) : exec .halt s = raise .haltEncountered 0x76 s := exec_eq_execForm .halt s

theorem exec_unimplemented (op : Byte) (s : State) : exec (.unimplemented op) s = raise .unimplementedOpcode op s :=
  exec_eq_execForm (.unimplemented op) s

/-! ## The step -/

/-- A faulted core takes no step (R65). -/
theorem step_of_faulted {s : State} {k : FaultKind} {p : Addr} {op : Byte} (h : s.run = .faulted k p op) :
    step s = .fault (.stopped k p op) := by
  simp [step, h]

/-- An opcode without operand bytes is never truncated, whatever `pc` is (R67). -/
theorem operandsRemain_of_no_operand {s : State} (hk : operandBytes s.fetchedOpcode = 0) : s.operandsRemain = true := by
  have := s.pc.isLt
  simp only [State.operandsRemain, hk, decide_eq_true_eq]
  omega

theorem fetchedInstr_of_no_operand {s : State} (hk : operandBytes s.fetchedOpcode = 0) :
    s.fetchedInstr = instrOf s.fetchedOpcode 0#8 0#16 := by
  simp only [State.fetchedInstr, hk]

/-- A running core's step on an opcode without operand bytes is the execution of the instruction the opcode selects, at every `pc`. -/
theorem step_of_no_operand {s : State} {op : Byte} (hr : s.run = .running) (hop : s.memRead s.pc = op) (hk : operandBytes op = 0) :
    step s = exec (instrOf op 0#8 0#16) s := by
  subst hop
  rcases step_cases s with ⟨_, _, _, hf, -⟩ | ⟨-, ho, -⟩ | ⟨-, -, hs⟩
  · simp [hr] at hf
  · simp [operandsRemain_of_no_operand hk] at ho
  · rw [hs, fetchedInstr_of_no_operand hk]
    rfl

/-! ## The unimplemented bytes -/

/-- R60's bytes select the unimplemented instruction that carries them. -/
theorem instrOf_unimplemented :
    ∀ op : Byte, isUnimplemented op = true → instrOf op 0#8 0#16 = .unimplemented op := by
  decide

/-! ## The obligations -/

/-- Settles O8: the meaning is `advance` by one byte at a cost of 4. -/
theorem nopOnlyAdvances : Obligations.NopOnlyAdvances :=
  ⟨rfl, fun s => (exec_nop s).trans (advance_eq_next 1#16 4 s)⟩

/-- Settles O9: 0x76 has no operand bytes, so a step on it is `exec .halt` at every `pc`, and the state it leaves is faulted. -/
theorem haltAlwaysFaults : Obligations.HaltAlwaysFaults := by
  have hexec : ∀ s : State, exec .halt s = .next { s with run := .faulted .haltEncountered s.pc 0x76 } :=
    fun s => (exec_halt s).trans (raise_eq_next .haltEncountered 0x76 s)
  refine ⟨rfl, hexec, fun s hr hop => ⟨?_, fun t ht => ?_⟩⟩
  · exact (step_of_no_operand hr hop rfl).trans (hexec s)
  · rw [step_of_faulted rfl] at ht
    nomatch ht

/-- Settles O11: an unimplemented byte has no operand bytes (R57) and selects `unimplemented op`, so the decoder reads it alone and a step is
its execution. -/
theorem unimplementedBytesAlwaysFault : Obligations.UnimplementedBytesAlwaysFault := by
  intro op hop
  have hk : operandBytes op = 0 := Laws.operandBytes_unimplemented op hop
  have hi : instrOf op 0#8 0#16 = .unimplemented op := instrOf_unimplemented op hop
  have hexec : ∀ s : State, exec (.unimplemented op) s = .next { s with run := .faulted .unimplementedOpcode s.pc op } :=
    fun s => (exec_unimplemented op s).trans (raise_eq_next .unimplementedOpcode op s)
  refine ⟨fun rest => ?_, hexec, fun s hr hm => ?_⟩
  · rw [decode_no_operand rest hk, hi]
  · rw [step_of_no_operand hr hm hk, hi, hexec]

end Sys2Proof.Proofs.Dispatch

/-! PROOFS. The register transfer unit (spec/41_register_transfer.md R81, R83, R89, R90, R95, R96): how a load and a store complete, and the
encodings of the forms with register arguments. -/

namespace Sys2Proof.Proofs.RegisterTransfer

open Sys2Proof.Machine Sys2Proof.Proofs.Dispatch

/-! ## Registers and addresses -/

/-- A register read depends on the register file alone. -/
theorem getReg_congr {s t : State} (h : t.regs = s.regs) (q : Reg) : t.getReg q = s.getReg q := by
  cases q <;> simp only [State.getReg, h]

/-- The address `0xFF00 + C` of `LD (C),A` and `LD A,(C)`, given by its value (R95, R96). -/
theorem eq_highPage_of_toNat {a : Addr} {n : Byte} (h : a.toNat = 0xFF00 + n.toNat) : a = highPage n :=
  BitVec.eq_of_toNat_eq (h.trans (highPage_toNat n).symm)

theorem isProtected_eq_false_iff (a : Addr) : isProtected a = false ↔ a.toNat < 0x0100 ∨ 0x7FFF < a.toNat := by
  rw [← Bool.not_eq_true, isProtected_iff]
  omega

/-! ## How a load and a store complete -/

/-- A cycle that replaces one register and falls through leaves everything else as it was. -/
theorem advance_setReg (n : Addr) (cost : Nat) (s : State) (r : Reg) (v : Byte) :
    ∃ t : State, advance n cost (s.setReg r v) = .next t ∧ t.getReg r = v ∧ (∀ q : Reg, q ≠ r → t.getReg q = s.getReg q) ∧
      t.pc = s.pc + n ∧ t.ticks = s.ticks + cost ∧
      t.flags = s.flags ∧ t.sp = s.sp ∧ t.mem = s.mem ∧ t.io = s.io ∧ t.run = s.run := by
  refine ⟨_, advance_eq_next n cost (s.setReg r v), ?_, fun q hq => ?_, ?_⟩
  · exact (getReg_congr rfl r).trans (getReg_setReg_same s r v)
  · exact (getReg_congr rfl q).trans (getReg_setReg_other s v hq)
  · simp

/-- A successful `MemWrite` stores its one byte, in every state that keeps the two arrays it leaves. -/
theorem storedAt_of_memWrite {s u t : State} {a : Addr} {v : Byte} (h : s.memWrite a v = .ok u) (hm : t.mem = u.mem) (hi : t.io = u.io) :
    StoredAt s t a v := by
  refine ⟨fun b => (memRead_congr hm hi b).trans (memRead_memWrite h b), ?_⟩
  rw [hm, hi]
  obtain ⟨-, ⟨hw, rfl⟩ | ⟨hw, rfl⟩⟩ := memWrite_cases h <;> simp [hw]

/-- A write off the protected range succeeds, and a cycle that makes it and falls through changes exactly that byte, `pc` and `ticks`. -/
theorem advance_of_writable {s : State} {a : Addr} (v : Byte) (n : Addr) (cost : Nat) (hw : isProtected a = false) :
    ∃ u t : State, s.memWrite a v = .ok u ∧ advance n cost u = .next t ∧ StoredAt s t a v ∧
      t.pc = s.pc + n ∧ t.ticks = s.ticks + cost ∧ t.regs = s.regs ∧ t.flags = s.flags ∧ t.sp = s.sp ∧ t.run = s.run := by
  obtain ⟨u, h⟩ := memWrite_writable s v hw
  refine ⟨u, _, h, advance_eq_next n cost u, storedAt_of_memWrite h rfl rfl, ?_⟩
  simp [memWrite_pc h, memWrite_ticks h, memWrite_regs h, memWrite_flags h, memWrite_sp h, memWrite_run h]

/-- `LD (HL),r` (R83) with a protected `HL` takes the fault. -/
theorem ldAtHlReg_protected (op : Byte) (src : Reg) {s : State} (hp : isProtected s.hl = true) :
    ldAtHlReg op src s = raise .readOnlyViolation op s := by
  rw [ldAtHlReg, memWrite_protected s _ hp]

/-- `LD (HL),r` (R83) with any other `HL` stores the register there. -/
theorem ldAtHlReg_writable (op : Byte) (src : Reg) {s : State} (hw : isProtected s.hl = false) :
    ∃ t : State, ldAtHlReg op src s = .next t ∧ StoredAt s t s.hl (s.getReg src) ∧
      t.pc = s.pc + 1#16 ∧ t.ticks = s.ticks + 8 ∧ t.regs = s.regs ∧ t.flags = s.flags ∧ t.sp = s.sp ∧ t.run = s.run := by
  obtain ⟨u, t, hu, ht⟩ := advance_of_writable (s.getReg src) 1#16 8 hw
  rw [ldAtHlReg, hu]
  exact ⟨t, ht⟩

/-- The store of `A` at an address off the protected range, with any length and cost (R91, R92, R95). -/
theorem storeA_writable (op : Byte) {a : Addr} (n : Addr) (cost : Nat) (s : State) (hw : isProtected a = false) :
    ∃ t : State, storeA op a n cost s = .next t ∧ StoredAt s t a s.regs.a ∧
      t.pc = s.pc + n ∧ t.ticks = s.ticks + cost ∧ t.regs = s.regs ∧ t.flags = s.flags ∧ t.sp = s.sp ∧ t.run = s.run := by
  obtain ⟨u, t, hu, ht⟩ := advance_of_writable s.regs.a n cost hw
  rw [storeA, hu]
  exact ⟨t, ht⟩

/-- `LD A,(HL+)` and `LD A,(HL-)` (R89, R90): `A` is no half of `HL`, so the adjustment keeps the byte loaded from the old `HL`. -/
theorem ldAAtHlStep_next (k : HlStep) (s : State) :
    ∃ t : State, ldAAtHlStep k s = .next t ∧ t.getReg .a = s.memRead s.hl ∧ t.hl = stepHl k s.hl ∧
      (∀ q : Reg, q ≠ .a → q ≠ .h → q ≠ .l → t.getReg q = s.getReg q) ∧ t.pc = s.pc + 1#16 ∧ t.ticks = s.ticks + 8 ∧
      t.flags = s.flags ∧ t.sp = s.sp ∧ t.mem = s.mem ∧ t.io = s.io ∧ t.run = s.run := by
  refine ⟨_, advance_eq_next 1#16 8 _, rfl, hl_setHl _ (stepHl k s.hl), fun q ha hh hl => ?_, by simp⟩
  calc
    _ = ((s.setReg .a (s.memRead s.hl)).setHl (stepHl k s.hl)).getReg q := getReg_congr rfl q
    _ = (s.setReg .a (s.memRead s.hl)).getReg q := getReg_setHl_other _ _ hh hl
    _ = s.getReg q := getReg_setReg_other s _ ha

/-! ## Encodings -/

/-- The opcodes of R81: destination code in bits 5 to 3, source code in bits 2 to 0. -/
theorem encode_ldRegReg (dst src : Reg) :
    encode (Form.ldRegReg dst src).instr = [BitVec.ofNat 8 (0x40 + 8 * dst.code.toNat + src.code.toNat)] := by
  cases dst <;> cases src <;> rfl

/-- The opcodes of R83: destination code 6, source code in bits 2 to 0. -/
theorem opcode_ldAtHlReg (src : Reg) : (Form.ldAtHlReg src).instr.opcode = BitVec.ofNat 8 (0x70 + src.code.toNat) := by
  cases src <;> rfl

theorem encode_ldAtHlReg (src : Reg) : encode (Form.ldAtHlReg src).instr = [BitVec.ofNat 8 (0x70 + src.code.toNat)] := by
  cases src <;> rfl

theorem exec_ldAtHlReg (src : Reg) (s : State) :
    exec (Form.ldAtHlReg src).instr s = ldAtHlReg (BitVec.ofNat 8 (0x70 + src.code.toNat)) src s := by
  rw [exec_instr, ← opcode_ldAtHlReg]
  rfl

/-! ## The obligations -/

/-- Settles O12: every pair is the one operation `ldRegReg`, a register write that falls through. -/
theorem loadRegisterFromRegister : Obligations.LoadRegisterFromRegister := by
  intro dst src
  refine ⟨encode_ldRegReg dst src, fun s => ?_⟩
  rw [exec_instr]
  exact advance_setReg 1#16 4 s dst (s.getReg src)

/-- Settles O14: the store at `HL` fails exactly on the protected range, and otherwise is the cycle's one write. -/
theorem storeRegisterAtHl : Obligations.StoreRegisterAtHl := by
  intro src
  refine ⟨encode_ldAtHlReg src, fun s lo hi => ?_, fun s hs => ?_⟩ <;> rw [exec_ldAtHlReg]
  · exact ldAtHlReg_protected _ src ((isProtected_iff s.hl).2 ⟨lo, hi⟩)
  · exact ldAtHlReg_writable _ src ((isProtected_eq_false_iff s.hl).2 hs)

/-- Settles O19: both instructions are `ldAAtHlStep`, with the two adjustments of `HL`. -/
theorem loadAThenStepHl : Obligations.LoadAThenStepHl :=
  ⟨rfl, rfl, fun s => ⟨ldAAtHlStep_next .inc s, ldAAtHlStep_next .dec s⟩⟩

/-- Settles O22: `0xFF00 + C` is never protected (R95), so the store of `A` there always succeeds. -/
theorem storeAThroughC : Obligations.StoreAThroughC := by
  refine ⟨rfl, fun s a ha => ?_⟩
  obtain rfl : a = highPage s.regs.c := eq_highPage_of_toNat ha
  rw [exec_eq_execForm]
  exact storeA_writable 0xE2 2#16 8 s (isProtected_highPage s.regs.c)

/-- Settles O23: the meaning is the load of `A` from `0xFF00 + C`, which falls through by 2 (R94). -/
theorem loadAThroughC : Obligations.LoadAThroughC := by
  refine ⟨rfl, fun s a ha => ?_⟩
  obtain rfl : a = highPage s.regs.c := eq_highPage_of_toNat ha
  exact exec_eq_execForm .ldAAtC s

end Sys2Proof.Proofs.RegisterTransfer

/-! PROOFS. The arithmetic/logic unit (spec/42_alu.md R100 to R104, R107): what the results and flags are, and how a cycle that writes one register
and the flags completes. -/

namespace Sys2Proof.Proofs.Alu

open Sys2Proof.Machine Sys2Proof.Proofs.RegisterTransfer

/-! ## The results and flags -/

/-- The sum modulo 256 (R101). -/
theorem aluAdd_toNat (x y : Byte) : (aluAdd x y).1.toNat = (x.toNat + y.toNat) % 256 := BitVec.toNat_ofNat ..

theorem aluAdd_z_iff (x y : Byte) : (aluAdd x y).2.z = true ↔ (x.toNat + y.toNat) % 256 = 0 := by
  rw [← aluAdd_toNat]
  exact decide_eq_true_iff.trans BitVec.toNat_inj.symm

theorem aluAdd_h_iff (x y : Byte) : (aluAdd x y).2.h = true ↔ x.toNat % 16 + y.toNat % 16 > 0xF := decide_eq_true_iff

theorem aluAdd_c_iff (x y : Byte) : (aluAdd x y).2.c = true ↔ x.toNat + y.toNat ≥ 256 := decide_eq_true_iff

/-- The decrement wraps: it is the addition of 255 modulo 256 (R107). -/
theorem aluDec_toNat (old : Byte) (f : Flags) : (aluDec old f).1.toNat = (old.toNat + 255) % 256 := by
  rw [Nat.add_comm]
  exact BitVec.toNat_sub old 1#8

theorem aluDec_z_iff (old : Byte) (f : Flags) : (aluDec old f).2.z = true ↔ (aluDec old f).1 = 0 := decide_eq_true_iff

theorem aluDec_h_iff (old : Byte) (f : Flags) : (aluDec old f).2.h = true ↔ (aluDec old f).1 ≠ 0x0F := decide_eq_true_iff

/-! ## How a cycle of the unit completes -/

/-- A cycle that replaces one register and the flags and falls through leaves everything else as it was. -/
theorem advance_setReg_flags (n : Addr) (cost : Nat) (s : State) (r : Reg) (v : Byte) (f : Flags) :
    ∃ t : State, advance n cost { s.setReg r v with flags := f } = .next t ∧ t.getReg r = v ∧
      (∀ q : Reg, q ≠ r → t.getReg q = s.getReg q) ∧ t.pc = s.pc + n ∧ t.ticks = s.ticks + cost ∧
      t.flags = f ∧ t.sp = s.sp ∧ t.mem = s.mem ∧ t.io = s.io ∧ t.run = s.run := by
  have hcomm : { s.setReg r v with flags := f } = State.setReg { s with flags := f } r v := by cases r <;> rfl
  rw [hcomm]
  exact advance_setReg n cost { s with flags := f } r v

/-- The four accumulator operations (R100), on an operand and at a cost given by the kind of operand: the result goes to `A`, the flags are
replaced, and the cycle falls through. -/
theorem exec_alu (op : AluOp) {o : Operand} {s : State} {x : Byte} {cost : Nat}
    (h : (∃ r : Reg, o = .reg r ∧ x = s.getReg r ∧ cost = 4) ∨ (o = .atHl ∧ x = s.memRead s.hl ∧ cost = 8)) :
    exec (Form.alu op o).instr s =
      .next { s with
        regs := { s.regs with a := (aluOf op s.regs.a x).1 }
        flags := (aluOf op s.regs.a x).2
        pc := s.pc + 1#16
        ticks := s.ticks + cost } := by
  rcases h with ⟨r, rfl, rfl, rfl⟩ | ⟨rfl, rfl, rfl⟩
  · exact exec_instr (.alu op (.reg r)) s
  · exact exec_instr (.alu op .atHl) s

theorem exec_decReg (r : Reg) (s : State) :
    exec (Form.decReg r).instr s =
      advance 1#16 4 { s.setReg r (aluDec (s.getReg r) s.flags).1 with flags := (aluDec (s.getReg r) s.flags).2 } :=
  (exec_instr (.decReg r) s).trans (decCode_reg (Form.decReg r).instr.opcode r s)

/-! ## Encodings -/

/-- The first opcode of each accumulator operation's row, that of operand `B` (R101 to R104). -/
def aluRow : AluOp → Nat
  | .add => 0x80
  | .and => 0xA0
  | .xor => 0xA8
  | .or => 0xB0

/-- The opcodes of R101 to R104: the operand's code in bits 2 to 0. -/
theorem encode_alu (op : AluOp) (o : Operand) :
    encode (Form.alu op o).instr = [BitVec.ofNat 8 (aluRow op + o.code.toNat)] := by
  cases o with
  | reg r => cases op <;> cases r <;> rfl
  | atHl => cases op <;> rfl

/-- The opcodes of R107: the register's code in bits 5 to 3. -/
theorem encode_decReg (r : Reg) : encode (Form.decReg r).instr = [BitVec.ofNat 8 (0x05 + 8 * r.code.toNat)] := by
  cases r <;> rfl

/-! ## The obligations -/

/-- Settles O24: the cycle writes `A` and the flags alone, and the result and flags are those of `aluAdd`. -/
theorem addResultAndFlags : Obligations.AddResultAndFlags := by
  refine ⟨encode_alu .add, fun o s x cost h => ?_⟩
  obtain ⟨t, ht, ha, hq, hpc, hticks, hf, hframe⟩ :=
    advance_setReg_flags 1#16 cost s .a (aluAdd (s.getReg .a) x).1 (aluAdd (s.getReg .a) x).2
  refine ⟨t, (exec_alu .add h).trans ht, ?_⟩
  rw [ha, hf]
  exact ⟨aluAdd_toNat _ _, aluAdd_z_iff _ _, rfl, aluAdd_h_iff _ _, aluAdd_c_iff _ _, hq, hpc, hticks, hframe⟩

/-- Settles O25: `exec_alu` at `and`, with R102's flags. -/
theorem andResultAndFlags : Obligations.AndResultAndFlags :=
  ⟨encode_alu .and, fun _ _ _ _ h => exec_alu .and h⟩

/-- Settles O26: `exec_alu` at `xor`, with R103's flags. -/
theorem xorResultAndFlags : Obligations.XorResultAndFlags :=
  ⟨encode_alu .xor, fun _ _ _ _ h => exec_alu .xor h⟩

/-- Settles O27: `exec_alu` at `or`, with R104's flags. -/
theorem orResultAndFlags : Obligations.OrResultAndFlags :=
  ⟨encode_alu .or, fun _ _ _ _ h => exec_alu .or h⟩

/-- Settles O29: the cycle writes the register and the flags alone, and the result and flags are those of `aluDec`. -/
theorem decrementRegister : Obligations.DecrementRegister := by
  intro r
  refine ⟨encode_decReg r, fun s => ?_⟩
  rw [exec_decReg]
  obtain ⟨t, ht, hr, hq, hpc, hticks, hf, hframe⟩ :=
    advance_setReg_flags 1#16 4 s r (aluDec (s.getReg r) s.flags).1 (aluDec (s.getReg r) s.flags).2
  refine ⟨t, ht, ?_⟩
  rw [hr, hf]
  exact ⟨aluDec_toNat _ _, hq, aluDec_z_iff _ _, rfl, aluDec_h_iff _ _, rfl, hpc, hticks, hframe⟩

end Sys2Proof.Proofs.Alu

/-! PROOFS. The control flow unit (spec/43_control_flow.md R118, R121): what a conditional return does when its condition holds and when it does
not. -/

namespace Sys2Proof.Proofs.ControlFlow

open Sys2Proof.Machine Sys2Proof.Proofs.Dispatch

/-! ## The condition and the meaning -/

/-- The condition `NC` holds exactly when the carry is clear (R118, log 15). -/
@[simp] theorem condHolds_noCarry (f : Flags) : condHolds f .noCarry = !f.c := rfl

theorem exec_retNc (s : State) : exec .retNc s = returnIf .noCarry s := exec_eq_execForm .retNc s

/-! ## The conditional return -/

/-- Taken, the return pops the target: the byte at `sp` is its high byte (R39, R121). -/
theorem returnIf_of_condHolds {c : Cond} {s : State} (h : condHolds s.flags c = true) :
    returnIf c s = .next { s with
      pc := join16 (s.memRead s.sp) (s.memRead (s.sp + 1#16)), sp := s.sp + 2#16, ticks := s.ticks + 20 } := by
  rcases returnIf_cases c s with ⟨-, hret⟩ | ⟨hc, -⟩
  · exact hret
  · simp [h] at hc

/-- Not taken, the return falls through, and the stack pointer stays. -/
theorem returnIf_of_not_condHolds {c : Cond} {s : State} (h : condHolds s.flags c = false) :
    returnIf c s = .next { s with pc := s.pc + 1#16, ticks := s.ticks + 8 } := by
  rcases returnIf_cases c s with ⟨hc, -⟩ | ⟨-, hret⟩
  · simp [h] at hc
  · exact hret.trans (advance_eq_next 1#16 8 s)

/-! ## The obligations -/

/-- Settles O33: the carry decides `NC`; with it clear the return is taken, to the word popped from the stack, and with it set the cycle falls
through. -/
theorem returnIfNoCarry : Obligations.ReturnIfNoCarry := by
  refine ⟨rfl, fun s => ⟨fun hc => ?_, fun hc => ?_⟩⟩ <;> rw [exec_retNc]
  · exact ⟨_, returnIf_of_condHolds (by simp [hc]), join16_toNat _ _⟩
  · exact returnIf_of_not_condHolds (by simp [hc])

end Sys2Proof.Proofs.ControlFlow

/-! PROOFS. The decoder and the encoder (spec/30_encoding.md): what the decoder answers, what each opcode byte selects, and that the two are
inverse to each other. -/

namespace Sys2Proof.Proofs.Encoding

open Sys2Proof.Machine

/-! ## The decoder -/

/-- The operand bytes of a format of `k` of them (R53), an `n16` low byte first (R54). -/
def operandList (k : Nat) (n8 : Byte) (n16 : Addr) : List Byte :=
  match k with
  | 0 => []
  | 1 => [n8]
  | _ => [lo8 n16, hi8 n16]

/-- Everything the decoder can read: an opcode byte and its operand bytes, whose instruction it answers with the bytes after them. -/
theorem decode_eq_ok {bytes rest : List Byte} {i : Instr} (h : decode bytes = .ok (i, rest)) :
    ∃ (op n8 : Byte) (n16 : Addr), i = instrOf op n8 n16 ∧ bytes = op :: operandList (operandBytes op) n8 n16 ++ rest := by
  cases bytes with
  | nil => nomatch h
  | cons op tail =>
    have hle := operandBytes_le_two op
    match hk : operandBytes op, tail with
    | 0, tail =>
      rw [decode_no_operand tail hk] at h
      cases h
      exact ⟨op, 0, 0, rfl, by rw [hk]; rfl⟩
    | 1, n8 :: tail =>
      rw [decode_one_operand n8 tail hk] at h
      cases h
      exact ⟨op, n8, 0, rfl, by rw [hk]; rfl⟩
    | 2, lo :: hi :: tail =>
      rw [decode_two_operands lo hi tail hk] at h
      cases h
      exact ⟨op, 0, join16 hi lo, rfl, by simp [hk, operandList]⟩
    | 1, [] | 2, [] | 2, [_] => simp [decode, hk] at h
    | k + 3, _ => omega

/-! ## The opcode map -/

/-- The opcode map (R55 to R57), byte by byte: each of the 256 opcodes selects a well-formed instruction with that opcode and with the operand it was
given. -/
theorem instrOf_spec (op n8 : Byte) (n16 : Addr) :
    encode (instrOf op n8 n16) = op :: operandList (operandBytes op) n8 n16 ∧ WellFormed (instrOf op n8 n16) = true := by
  obtain ⟨n, hn, rfl⟩ : ∃ n < 256, op = BitVec.ofNat 8 n := ⟨op.toNat, op.isLt, by simp⟩
  interval_cases n <;> exact ⟨rfl, rfl⟩

theorem opcode_instrOf (op n8 : Byte) (n16 : Addr) : (instrOf op n8 n16).opcode = op :=
  (List.cons.inj (instrOf_spec op n8 n16).1).1

/-! ## Decode after encode -/

/-- The round trip of an instruction with one operand byte. -/
theorem decode_encode_of_byte (op : Byte) {i : Instr} {n8 : Byte} (henc : encode i = [op, n8]) (hk : operandBytes op = 1)
    (hi : instrOf op n8 0#16 = i) (rest : List Byte) : decode (encode i ++ rest) = .ok (i, rest) := by
  rw [henc, ← hi]
  exact decode_one_operand n8 rest hk

/-- The round trip of an instruction with a 16-bit operand: the decoder joins the two bytes the encoder split it into (R54). -/
theorem decode_encode_of_word (op : Byte) {i : Instr} {n16 : Addr} (henc : encode i = [op, lo8 n16, hi8 n16]) (hk : operandBytes op = 2)
    (hi : instrOf op 0#8 n16 = i) (rest : List Byte) : decode (encode i ++ rest) = .ok (i, rest) := by
  rw [henc, ← hi]
  exact (decode_two_operands (lo8 n16) (hi8 n16) rest hk).trans (by rw [join16_hi8_lo8])

/-- The round trip of each form of R58: the decoder reads the form's operand bytes, and the fields of its opcode give back its register arguments. -/
theorem decode_encode_form (f : Form) (hf : WellFormed f.instr = true) (rest : List Byte) :
    decode (encode f.instr ++ rest) = .ok (f.instr, rest) := by
  cases f with
  | nop | halt | di | ldAtCA | ldAAtC | decAtHl | retNc => rfl
  | ldRegReg dst src => cases dst <;> cases src <;> rfl
  | ldRegAtHl r | ldAtHlReg r | decReg r => cases r <;> rfl
  | ldAtHlStepA k | ldAAtHlStep k => cases k <;> rfl
  | alu op o =>
    cases o with
    | reg r => cases op <;> cases r <;> rfl
    | atHl => cases op <;> rfl
  | ldRegN8 r n8 =>
    refine decode_encode_of_byte (n8 := n8) (BitVec.ofNat 8 (0x06 + 8 * r.code.toNat)) ?_ ?_ ?_ rest <;> cases r <;> rfl
  | ldAtHlN8 n8 => exact decode_encode_of_byte 0x36 rfl rfl rfl rest
  | ldhAtN8A n8 => exact decode_encode_of_byte 0xE0 rfl rfl rfl rest
  | ldhAAtN8 n8 => exact decode_encode_of_byte 0xF0 rfl rfl rfl rest
  | jpNzR8 r8 => exact decode_encode_of_byte 0x20 rfl rfl rfl rest
  | ldPairN16 p n16 =>
    cases p with
    | bc => exact decode_encode_of_word 0x01 rfl rfl rfl rest
    | de => exact decode_encode_of_word 0x11 rfl rfl rfl rest
    | hl => exact decode_encode_of_word 0x21 rfl rfl rfl rest
    | sp => exact decode_encode_of_word 0x31 rfl rfl rfl rest
  | ldAtN16A n16 => exact decode_encode_of_word 0xEA rfl rfl rfl rest
  | jpN16 n16 => exact decode_encode_of_word 0xC3 rfl rfl rfl rest
  | callN16 n16 => exact decode_encode_of_word 0xCD rfl rfl rfl rest
  | unimplemented op => exact (Dispatch.unimplementedBytesAlwaysFault op hf).1 rest

/-- The length of an encoding (R51, R57): the opcode byte and the operand bytes the decoder reads for it. -/
theorem length_encode {i : Instr} (hi : WellFormed i = true) : (encode i).length = 1 + operandBytes i.opcode := by
  have hdec : decode (encode i ++ []) = .ok (i, []) := by
    have h := decode_encode_form i.form (by rwa [instr_form]) []
    rwa [instr_form] at h
  obtain ⟨op, n8, n16, rfl, henc⟩ := decode_eq_ok hdec
  have hle := operandBytes_le_two op
  simp only [List.append_nil] at henc
  rw [henc, opcode_instrOf]
  match hk : operandBytes op with
  | 0 | 1 | 2 => rfl
  | k + 3 => omega

/-! ## The obligations -/

/-- Settles O36: every instruction is that of its form, and the round trip holds form by form. -/
theorem decodeInvertsEncode : Obligations.DecodeInvertsEncode := by
  intro i hi rest
  have h := decode_encode_form i.form (by rwa [instr_form]) rest
  rwa [instr_form] at h

/-- Settles O37: what was decoded is the instruction the opcode map gives for an opcode and its operand bytes, and that is well-formed and encodes to
them. -/
theorem encodeInvertsDecode : Obligations.EncodeInvertsDecode := by
  intro bytes rest i h
  obtain ⟨op, n8, n16, rfl, rfl⟩ := decode_eq_ok h
  obtain ⟨henc, hwf⟩ := instrOf_spec op n8 n16
  exact ⟨hwf, by rw [henc]⟩

/-- Settles O38: by the opcode map an unimplemented instruction carries its own opcode, one of R60's; and a byte of R60 decodes to the unimplemented
instruction, so by the round trip nothing else has that opcode. -/
theorem opcodeMapIsPartitioned : Obligations.OpcodeMapIsPartitioned := by
  refine ⟨fun op n8 n16 => ⟨opcode_instrOf op n8 n16, fun ⟨x, hx⟩ => ?_, fun hop => ⟨op, ?_⟩⟩, rfl⟩
  · have hwf := (instrOf_spec op n8 n16).2
    have hx' := opcode_instrOf op n8 n16
    rw [hx] at hwf hx'
    exact hx' ▸ hwf
  · obtain ⟨henc, hwf⟩ := instrOf_spec op n8 n16
    have hdec := decodeInvertsEncode _ hwf []
    rw [henc, List.append_nil, (Dispatch.unimplementedBytesAlwaysFault op hop).1] at hdec
    injection hdec with h
    exact (Prod.mk.inj h).1.symm

/-- Settles O35: the decoder evaluates on each of the words. -/
theorem writtenOutWordsDecode : Obligations.WrittenOutWordsDecode :=
  ⟨rfl, rfl, rfl, rfl, rfl, rfl, rfl, rfl, rfl, rfl, rfl, rfl, rfl, rfl, rfl, rfl, rfl, rfl⟩

end Sys2Proof.Proofs.Encoding

/-! PROOFS. What every instruction does, said once: which fault it takes, and otherwise the registers, flags, `pc`, `sp` and bytes it writes, as
functions of the state before it. Every statement over all instructions is derived from `exec_cases`. -/

namespace Sys2Proof.Proofs.Effect

open Sys2Proof.Machine

/-! ## One store -/

/-- A store touches the two arrays only. -/
theorem placeByte_eq (s : State) (a : Addr) (v : Byte) :
    s.placeByte a v = { s with mem := (s.placeByte a v).mem, io := (s.placeByte a v).io } := by
  unfold State.placeByte
  split <;> rfl

@[simp] theorem placeByte_regs (s : State) (a : Addr) (v : Byte) : (s.placeByte a v).regs = s.regs := by rw [placeByte_eq]
@[simp] theorem placeByte_flags (s : State) (a : Addr) (v : Byte) : (s.placeByte a v).flags = s.flags := by rw [placeByte_eq]
@[simp] theorem placeByte_pc (s : State) (a : Addr) (v : Byte) : (s.placeByte a v).pc = s.pc := by rw [placeByte_eq]
@[simp] theorem placeByte_sp (s : State) (a : Addr) (v : Byte) : (s.placeByte a v).sp = s.sp := by rw [placeByte_eq]
@[simp] theorem placeByte_ticks (s : State) (a : Addr) (v : Byte) : (s.placeByte a v).ticks = s.ticks := by rw [placeByte_eq]
@[simp] theorem placeByte_run (s : State) (a : Addr) (v : Byte) : (s.placeByte a v).run = s.run := by rw [placeByte_eq]

theorem placeByte_of_inWindow (s : State) {a : Addr} (v : Byte) (h : inWindow a = true) :
    s.placeByte a v = { s with io := s.io.write (ioIndex a) v } := by
  simp [State.placeByte, h]

theorem placeByte_of_not_inWindow (s : State) {a : Addr} (v : Byte) (h : inWindow a = false) :
    s.placeByte a v = { s with mem := s.mem.write a.toNat v } := by
  simp [State.placeByte, h]

/-- A successful `MemWrite` places its byte (R33, R36). -/
theorem eq_placeByte_of_memWrite {s t : State} {a : Addr} {v : Byte} (h : s.memWrite a v = .ok t) : t = s.placeByte a v := by
  obtain ⟨-, ⟨hw, rfl⟩ | ⟨hw, rfl⟩⟩ := memWrite_cases h
  · exact (placeByte_of_inWindow s v hw).symm
  · exact (placeByte_of_not_inWindow s v hw).symm

/-- `MemRead` after a store. -/
theorem memRead_placeByte (s : State) (a b : Addr) (v : Byte) :
    (s.placeByte a v).memRead b = if b = a then v else s.memRead b := by
  by_cases e : b = a
  · subst e
    cases hb : inWindow b
    · simp [placeByte_of_not_inWindow s v hb, State.memRead, hb]
    · simp [placeByte_of_inWindow s v hb, State.memRead, hb]
  · rw [if_neg e]
    cases ha : inWindow a <;> cases hb : inWindow b
    · have hne : b.toNat ≠ a.toNat := fun c => e (BitVec.eq_of_toNat_eq c)
      simp [placeByte_of_not_inWindow s v ha, State.memRead, hb, Memory.read_write_other _ _ hne]
    · simp [placeByte_of_not_inWindow s v ha, State.memRead, hb]
    · simp [placeByte_of_inWindow s v ha, State.memRead, hb]
    · have hne : ioIndex b ≠ ioIndex a := fun c => e (ioIndex_inj hb ha c)
      simp [placeByte_of_inWindow s v ha, State.memRead, hb, Memory.read_write_other _ _ hne]

/-! ## The stores of a cycle -/

/-- The state after the writes among some accesses, in order. -/
def storeAll : List Access → State → State
  | [], s => s
  | .read _ _ :: l, s => storeAll l s
  | .write a v :: l, s => storeAll l (s.placeByte a v)

/-- Stores touch the two arrays only. -/
theorem storeAll_eq (l : List Access) (s : State) :
    storeAll l s = { s with mem := (storeAll l s).mem, io := (storeAll l s).io } := by
  induction l generalizing s with
  | nil => rfl
  | cons x l ih =>
    cases x with
    | read b w => exact ih s
    | write b w => exact (ih (s.placeByte b w)).trans (by simp [storeAll])

theorem placeByte_withSp (s : State) (x a : Addr) (v : Byte) :
    { s with sp := x }.placeByte a v = { s.placeByte a v with sp := x } := by
  unfold State.placeByte
  split <;> rfl

/-- A push whose two bytes are writable places the low byte at `sp - 1` and the high byte at `sp - 2` (R38). -/
theorem eq_storeAll_of_push16 {s t : State} {v : Addr} (h : s.push16 v = .ok t) :
    t = { storeAll [.write (s.sp - 1#16) (lo8 v), .write (s.sp - 2#16) (hi8 v)] s with sp := s.sp - 2#16 } := by
  rcases push16_cases s v with ⟨he, -⟩ | ⟨-, -, s1, s2, h1, h2, he⟩
  · nomatch he.symm.trans h
  · obtain rfl : s2 = t := Except.ok.inj (he.symm.trans h)
    rw [eq_placeByte_of_memWrite h2, eq_placeByte_of_memWrite h1]
    simp only [placeByte_withSp, storeAll]

theorem mem_writtenAddrs {l : List Access} {a : Addr} :
    a ∈ l.filterMap Access.writtenAddr ↔ ∃ v : Byte, Access.write a v ∈ l := by
  rw [List.mem_filterMap]
  constructor
  · rintro ⟨x, hx, hxa⟩
    cases x with
    | read b w => nomatch hxa
    | write b w =>
      obtain rfl : b = a := Option.some.inj hxa
      exact ⟨w, hx⟩
  · rintro ⟨v, hv⟩
    exact ⟨_, hv, rfl⟩

/-- A byte reads as before, or it was stored: the last write to its address gives it. -/
theorem memRead_storeAll_cases (l : List Access) (s : State) (a : Addr) :
    (storeAll l s).memRead a = s.memRead a ∨ Access.write a ((storeAll l s).memRead a) ∈ l := by
  induction l generalizing s with
  | nil => exact .inl rfl
  | cons x l ih =>
    cases x with
    | read b w => exact (ih s).imp id (List.mem_cons_of_mem _)
    | write b w =>
      rcases ih (s.placeByte b w) with h | h
      · by_cases e : a = b
        · subst e
          have hw : (storeAll (.write a w :: l) s).memRead a = w := h.trans (by simp [memRead_placeByte])
          exact .inr (by simp [hw])
        · exact .inl (h.trans (by simp [memRead_placeByte, e]))
      · exact .inr (List.mem_cons_of_mem _ h)

theorem memRead_storeAll_of_not_mem {l : List Access} (s : State) {a : Addr} (ha : a ∉ l.filterMap Access.writtenAddr) :
    (storeAll l s).memRead a = s.memRead a :=
  (memRead_storeAll_cases l s a).resolve_right fun h => ha (mem_writtenAddrs.2 ⟨_, h⟩)

/-- Where no address is written twice, every byte written is the byte read. -/
theorem memRead_storeAll_of_mem {l : List Access} (hl : (l.filterMap Access.writtenAddr).Nodup) (s : State) {a : Addr} {v : Byte}
    (h : Access.write a v ∈ l) : (storeAll l s).memRead a = v := by
  induction l generalizing s with
  | nil => nomatch h
  | cons x l ih =>
    cases x with
    | read b w => exact ih hl s ((List.mem_cons.1 h).resolve_left nofun)
    | write b w =>
      obtain ⟨hb, hl⟩ := List.nodup_cons.1 hl
      rcases List.mem_cons.1 h with e | h
      · cases e
        exact (memRead_storeAll_of_not_mem _ hb).trans (by simp [memRead_placeByte])
      · exact ih hl _ h

theorem storeAll_mem {l : List Access} (h : ∀ a ∈ l.filterMap Access.writtenAddr, inWindow a = true) (s : State) :
    (storeAll l s).mem = s.mem := by
  induction l generalizing s with
  | nil => rfl
  | cons x l ih =>
    cases x with
    | read b w => exact ih h s
    | write b w =>
      obtain ⟨hb, hl⟩ := List.forall_mem_cons.1 h
      exact (ih hl _).trans (by rw [placeByte_of_inWindow s w hb])

theorem storeAll_io {l : List Access} (h : ∀ a ∈ l.filterMap Access.writtenAddr, inWindow a = false) (s : State) :
    (storeAll l s).io = s.io := by
  induction l generalizing s with
  | nil => rfl
  | cons x l ih =>
    cases x with
    | read b w => exact ih h s
    | write b w =>
      obtain ⟨hb, hl⟩ := List.forall_mem_cons.1 h
      exact (ih hl _).trans (by rw [placeByte_of_not_inWindow s w hb])

/-- The bytes of `mem` under the I/O window are never written (R36). -/
theorem read_storeAll_shadowed (l : List Access) (s : State) {a : Addr} (ha : inWindow a = true) :
    (storeAll l s).mem.read a.toNat = s.mem.read a.toNat := by
  induction l generalizing s with
  | nil => rfl
  | cons x l ih =>
    cases x with
    | read b w => exact ih s
    | write b w =>
      refine (ih _).trans ?_
      cases hb : inWindow b
      · have hne : a.toNat ≠ b.toNat := fun c => by simp [BitVec.eq_of_toNat_eq c, hb] at ha
        rw [placeByte_of_not_inWindow s w hb, Memory.read_write_other _ _ hne]
      · rw [placeByte_of_inWindow s w hb]

/-- Both arrays stay canonical. -/
theorem wf_storeAll (l : List Access) {s : State} (h : s.wf = true) : (storeAll l s).wf = true := by
  induction l generalizing s with
  | nil => exact h
  | cons x l ih =>
    cases x with
    | read b w => exact ih h
    | write b w =>
      obtain ⟨hm, hi⟩ : Memory.wf Config.memSize s.mem = true ∧ Memory.wf Config.ioSize s.io = true := by
        simpa [State.wf] using h
      apply ih
      cases hb : inWindow b
      · simp [placeByte_of_not_inWindow s w hb, State.wf, hi, Memory.wf_write w b.isLt hm]
      · simp [placeByte_of_inWindow s w hb, State.wf, hm, Memory.wf_write w (ioIndex_lt hb) hi]

/-! ## What a completing instruction leaves -/

/-- The registers a completing instruction writes, with their new values (the table after R15 with R81 to R107). -/
def regWrites (f : Form) (s : State) : List (Reg × Byte) :=
  match f with
  | .ldRegReg dst src => [(dst, s.getReg src)]
  | .ldRegAtHl dst => [(dst, s.memRead s.hl)]
  | .ldRegN8 dst n8 => [(dst, n8)]
  | .ldPairN16 .bc n16 => [(.b, hi8 n16), (.c, lo8 n16)]
  | .ldPairN16 .de n16 => [(.d, hi8 n16), (.e, lo8 n16)]
  | .ldPairN16 .hl n16 => [(.h, hi8 n16), (.l, lo8 n16)]
  | .ldAtHlStepA k => [(.h, hi8 (stepHl k s.hl)), (.l, lo8 (stepHl k s.hl))]
  | .ldAAtHlStep k => [(.a, s.memRead s.hl), (.h, hi8 (stepHl k s.hl)), (.l, lo8 (stepHl k s.hl))]
  | .ldhAAtN8 n8 => [(.a, s.memRead (highPage n8))]
  | .ldAAtC => [(.a, s.memRead (highPage s.regs.c))]
  | .alu op o => [(.a, (aluOf op s.regs.a (s.operand o)).1)]
  | .decReg r => [(r, (aluDec (s.getReg r) s.flags).1)]
  | .nop | .halt | .di | .ldAtHlReg _ | .ldAtHlN8 _ | .ldPairN16 .sp _ | .ldAtN16A _ | .ldhAtN8A _ | .ldAtCA => []
  | .decAtHl | .jpN16 _ | .callN16 _ | .jpNzR8 _ | .retNc | .unimplemented _ => []

/-- The flags a completing instruction leaves (R19, R20). -/
def flagsAfter (f : Form) (s : State) : Flags :=
  match f with
  | .alu op o => (aluOf op s.regs.a (s.operand o)).2
  | .decReg r => (aluDec (s.getReg r) s.flags).2
  | .nop | .halt | .di | .ldRegReg _ _ | .ldRegAtHl _ | .ldAtHlReg _ | .ldRegN8 _ _ | .ldAtHlN8 _ | .ldPairN16 _ _ => s.flags
  | .ldAtHlStepA _ | .ldAAtHlStep _ | .ldAtN16A _ | .ldhAtN8A _ | .ldhAAtN8 _ | .ldAtCA | .ldAAtC => s.flags
  | .decAtHl | .jpN16 _ | .callN16 _ | .jpNzR8 _ | .retNc | .unimplemented _ => s.flags

/-- The `pc` a completing instruction leaves (R69): past its bytes, one more for the two forms of R94, or the target of a jump. -/
def pcAfter (f : Form) (s : State) : Addr :=
  match f with
  | .ldRegN8 _ _ | .ldhAtN8A _ | .ldhAAtN8 _ | .ldAtCA | .ldAAtC => s.pc + 2#16
  | .ldPairN16 _ _ | .ldAtN16A _ => s.pc + 3#16
  | .jpN16 n16 | .callN16 n16 => n16
  | .jpNzR8 r8 => if s.flags.z then s.pc + 2#16 else relativeTarget s.pc r8
  | .retNc => if s.flags.c then s.pc + 1#16 else join16 (s.memRead s.sp) (s.memRead (s.sp + 1#16))
  | .nop | .halt | .di | .ldRegReg _ _ | .ldRegAtHl _ | .ldAtHlReg _ | .ldAtHlN8 _ | .ldAtHlStepA _ | .ldAAtHlStep _ => s.pc + 1#16
  | .alu _ _ | .decReg _ | .decAtHl | .unimplemented _ => s.pc + 1#16

/-- The `sp` a completing instruction leaves (R17). -/
def spAfter (f : Form) (s : State) : Addr :=
  match f with
  | .ldPairN16 .sp n16 => n16
  | .callN16 _ => s.sp - 2#16
  | .retNc => if s.flags.c then s.sp else s.sp + 2#16
  | .nop | .halt | .di | .ldRegReg _ _ | .ldRegAtHl _ | .ldAtHlReg _ | .ldRegN8 _ _ | .ldAtHlN8 _ => s.sp
  | .ldPairN16 .bc _ | .ldPairN16 .de _ | .ldPairN16 .hl _ | .ldAtHlStepA _ | .ldAAtHlStep _ | .ldAtN16A _ => s.sp
  | .ldhAtN8A _ | .ldhAAtN8 _ | .ldAtCA | .ldAAtC | .alu _ _ | .decReg _ | .decAtHl | .jpN16 _ | .jpNzR8 _ | .unimplemented _ => s.sp

/-- Replace registers, one after the other. -/
def setRegs (l : List (Reg × Byte)) (s : State) : State :=
  l.foldl (fun u w => u.setReg w.1 w.2) s

/-- The state after an instruction of this form that completes. -/
def completed (f : Form) (s : State) : State where
  regs := (setRegs (regWrites f s) s).regs
  flags := flagsAfter f s
  pc := pcAfter f s
  sp := spAfter f s
  ticks := s.ticks + formCost f s
  mem := (storeAll (formAccesses f s) s).mem
  io := (storeAll (formAccesses f s) s).io
  run := s.run

/-! ## Which fault an instruction takes -/

/-- The forms whose execution takes a fault in every state (R70, R73, R84, R108). -/
def alwaysFaults : Form → Bool
  | .halt | .decAtHl | .ldAtHlN8 _ | .unimplemented _ => true
  | _ => false

theorem raisesIn_of_alwaysFaults {f : Form} (hf : alwaysFaults f = true) (s : State) : ∃ k : FaultKind, raisesIn f.instr s = some k := by
  cases f with
  | halt | decAtHl | ldAtHlN8 _ | unimplemented _ => exact ⟨_, rfl⟩
  | _ => nomatch hf

/-- Every other form faults exactly on a protected store. -/
theorem raisesIn_instr {f : Form} (hf : alwaysFaults f = false) (s : State) :
    raisesIn f.instr s =
      if ((formAccesses f s).filterMap Access.writtenAddr).any isProtected then some .readOnlyViolation else none := by
  unfold raisesIn storedAddrs
  rw [form_instr]
  cases f with
  | halt | decAtHl | ldAtHlN8 _ | unimplemented _ => nomatch hf
  | _ => rfl

/-! ## The two conditional forms -/

theorem pcAfter_jpNzR8 (r8 : Byte) (s : State) :
    pcAfter (.jpNzR8 r8) s = if s.flags.z then s.pc + 2#16 else relativeTarget s.pc r8 := rfl

theorem formCost_jpNzR8 (r8 : Byte) (s : State) : formCost (.jpNzR8 r8) s = if s.flags.z then 8 else 12 := rfl

theorem pcAfter_retNc (s : State) :
    pcAfter .retNc s = if s.flags.c then s.pc + 1#16 else join16 (s.memRead s.sp) (s.memRead (s.sp + 1#16)) := rfl

theorem spAfter_retNc (s : State) : spAfter .retNc s = if s.flags.c then s.sp else s.sp + 2#16 := rfl

theorem formCost_retNc (s : State) : formCost .retNc s = if s.flags.c then 8 else 20 := rfl

theorem formAccesses_retNc (s : State) :
    formAccesses .retNc s = if condHolds s.flags .noCarry then [s.readAccess s.sp, s.readAccess (s.sp + 1#16)] else [] := rfl

/-- Taken or not, `JP NZ,r8` completes (R119). -/
theorem jumpRelativeIf_notZero (r8 : Byte) (s : State) : jumpRelativeIf .notZero r8 s = .next (completed (.jpNzR8 r8) s) := by
  unfold completed jumpRelativeIf
  rw [pcAfter_jpNzR8, formCost_jpNzR8]
  cases hz : s.flags.z <;> simp only [condHolds, hz] <;> rfl

/-- Taken or not, `RET NC` completes, and stores nothing (R121). -/
theorem returnIf_noCarry (s : State) : returnIf .noCarry s = .next (completed .retNc s) := by
  have hstore : storeAll (formAccesses .retNc s) s = s := by
    rw [formAccesses_retNc]
    split <;> rfl
  unfold completed
  rw [pcAfter_retNc, spAfter_retNc, formCost_retNc, hstore]
  cases hc : s.flags.c
  · exact ControlFlow.returnIf_of_condHolds (by simp [hc])
  · exact ControlFlow.returnIf_of_not_condHolds (by simp [hc])

/-! ## Everything an instruction can do -/

/-- A form with one store faults on a protected address and otherwise completes, with the byte placed. -/
theorem execForm_cases_of_store {f : Form} {s : State} {a : Addr} {v : Byte} {finish : State → Host.Outcome State Fault Refusal}
    (hf : alwaysFaults f = false) (ha : formAccesses f s = [.write a v])
    (h : (isProtected a = true ∧ execForm f s = raise .readOnlyViolation f.instr.opcode s) ∨
      (isProtected a = false ∧ ∃ t : State, s.memWrite a v = .ok t ∧ execForm f s = finish t))
    (hfinish : finish (s.placeByte a v) = .next (completed f s)) :
    (∃ k : FaultKind, raisesIn f.instr s = some k ∧ execForm f s = raise k f.instr.opcode s) ∨
      (raisesIn f.instr s = none ∧ execForm f s = .next (completed f s)) := by
  rw [raisesIn_instr hf, ha]
  rcases h with ⟨hp, he⟩ | ⟨hp, t, ht, he⟩
  · exact .inl ⟨_, by simp [Access.writtenAddr, hp], he⟩
  · obtain rfl := eq_placeByte_of_memWrite ht
    exact .inr ⟨by simp [Access.writtenAddr, hp], he.trans hfinish⟩

/-- An instruction of each form takes the fault R132 lists for it in the state, or completes. -/
theorem execForm_cases (f : Form) (s : State) :
    (∃ k : FaultKind, raisesIn f.instr s = some k ∧ execForm f s = raise k f.instr.opcode s) ∨
      (raisesIn f.instr s = none ∧ execForm f s = .next (completed f s)) := by
  cases f with
  | halt | decAtHl | ldAtHlN8 n8 | unimplemented op => exact .inl ⟨_, rfl, rfl⟩
  | nop | di | jpN16 n16 | ldAAtC | ldhAAtN8 n8 => exact .inr ⟨rfl, rfl⟩
  | ldRegReg r _ | ldRegAtHl r | ldRegN8 r _ | decReg r => exact .inr ⟨raisesIn_instr rfl s, by cases r <;> rfl⟩
  | ldPairN16 p n16 => exact .inr ⟨raisesIn_instr rfl s, by cases p <;> rfl⟩
  | ldAAtHlStep k => exact .inr ⟨raisesIn_instr rfl s, rfl⟩
  | alu op o => cases o <;> exact .inr ⟨raisesIn_instr rfl s, rfl⟩
  | ldAtHlReg src => exact execForm_cases_of_store rfl rfl (ldAtHlReg_cases _ src s) (by rw [placeByte_eq]; rfl)
  | ldAtHlStepA k => exact execForm_cases_of_store rfl rfl (ldAtHlStepA_cases _ k s) (by rw [placeByte_eq]; rfl)
  | ldAtN16A n16 => exact execForm_cases_of_store rfl rfl (storeA_cases _ n16 3#16 16 s) (by rw [placeByte_eq]; rfl)
  | ldhAtN8A n8 => exact execForm_cases_of_store rfl rfl (storeA_cases _ (highPage n8) 2#16 12 s) (by rw [placeByte_eq]; rfl)
  | ldAtCA => exact execForm_cases_of_store rfl rfl (storeA_cases _ (highPage s.regs.c) 2#16 8 s) (by rw [placeByte_eq]; rfl)
  | callN16 n16 =>
    rw [raisesIn_instr rfl]
    rcases call_cases 0xCD n16 s with ⟨hp, he⟩ | ⟨h1, h2, t, ht, he⟩
    · exact .inl ⟨_, by simp [formAccesses, Access.writtenAddr, hp], he⟩
    · refine .inr ⟨by simp [formAccesses, Access.writtenAddr, h1, h2], he.trans ?_⟩
      rw [eq_storeAll_of_push16 ht, storeAll_eq]
      rfl
  | jpNzR8 r8 => exact .inr ⟨raisesIn_instr rfl s, jumpRelativeIf_notZero r8 s⟩
  | retNc =>
    refine .inr ⟨?_, returnIf_noCarry s⟩
    rw [raisesIn_instr rfl, formAccesses_retNc]
    split <;> rfl

/-- Everything an instruction can do: take the fault R132 lists for it in the state, or complete. -/
theorem exec_cases (i : Instr) (s : State) :
    (∃ k : FaultKind, raisesIn i s = some k ∧ exec i s = .next { s with run := .faulted k s.pc i.opcode }) ∨
      (raisesIn i s = none ∧ exec i s = .next (completed i.form s)) := by
  have h := execForm_cases i.form s
  rwa [instr_form, ← exec_eq_execForm] at h

end Sys2Proof.Proofs.Effect

/-! PROOFS. The statements over all instructions: completion and faults (spec/60_exceptions.md R132, R135), and the frames of memory, registers and
flags. -/

namespace Sys2Proof.Proofs.Frames

open Sys2Proof.Machine Sys2Proof.Proofs.Effect Sys2Proof.Proofs.RegisterTransfer

/-- Everything a next state of an instruction can be. -/
theorem exec_next_cases {i : Instr} {s t : State} (h : exec i s = .next t) :
    (∃ k : FaultKind, raisesIn i s = some k ∧ t = { s with run := .faulted k s.pc i.opcode }) ∨
      (raisesIn i s = none ∧ t = completed i.form s) := by
  rcases exec_cases i s with ⟨k, hk, he⟩ | ⟨hn, he⟩ <;> cases he.symm.trans h
  · exact .inl ⟨k, hk, rfl⟩
  · exact .inr ⟨hn, rfl⟩

/-! ## Memory -/

theorem memRead_completed (f : Form) (s : State) (a : Addr) :
    (completed f s).memRead a = (storeAll (formAccesses f s) s).memRead a := rfl

/-- No instruction stores twice to one address: `CALL`, the only one with two stores, has them one apart (R38). -/
theorem nodup_storedAddrs (f : Form) (s : State) : ((formAccesses f s).filterMap Access.writtenAddr).Nodup := by
  cases f with
  | callN16 n16 =>
    have hne : s.sp - 1#16 ≠ s.sp - 2#16 := by bv_omega
    simp [formAccesses, Access.writtenAddr, hne]
  | retNc =>
    rw [formAccesses_retNc]
    split <;> exact List.nodup_nil
  | alu op o => cases o <;> exact List.nodup_nil
  | ldAtHlReg _ | ldAtHlStepA _ | ldAtN16A _ | ldhAtN8A _ | ldAtCA => exact List.nodup_singleton _
  | _ => exact List.nodup_nil

/-! ## Registers -/

/-- The registers written are those of the table after R15. -/
theorem map_fst_regWrites (f : Form) (s : State) : (regWrites f s).map Prod.fst = writtenRegs f := by
  cases f with
  | ldPairN16 p n16 => cases p <;> rfl
  | _ => rfl

theorem getReg_setRegs_of_not_mem {l : List (Reg × Byte)} {r : Reg} (hr : r ∉ l.map Prod.fst) (s : State) :
    (setRegs l s).getReg r = s.getReg r := by
  induction l generalizing s with
  | nil => rfl
  | cons w l ih =>
    obtain ⟨hw, hl⟩ := not_or.1 (mt List.mem_cons.2 hr)
    exact (ih hl _).trans (getReg_setReg_other s w.2 hw)

theorem spAfter_of_not_writesSp {f : Form} {s : State} (h : writesSp f s = false) : spAfter f s = s.sp := by
  cases f with
  | ldPairN16 p n16 =>
    cases p with
    | sp => nomatch h
    | bc | de | hl => rfl
  | callN16 n16 => nomatch h
  | retNc =>
    have hc : s.flags.c = true := by simpa [writesSp] using h
    rw [spAfter_retNc, hc]
    rfl
  | _ => rfl

/-! ## Flags -/

theorem flagsAfter_cases (f : Form) (s : State) :
    flagsAfter f s = s.flags ∨ (∃ (op : AluOp) (o : Operand), f = .alu op o) ∨ ∃ r : Reg, f = .decReg r := by
  cases f with
  | alu op o => exact .inr (.inl ⟨op, o, rfl⟩)
  | decReg r => exact .inr (.inr ⟨r, rfl⟩)
  | _ => exact .inl rfl

/-- Only `ADD` sets a clear carry (R122): the other accumulator operations clear it, and `DEC` keeps it. -/
theorem add_of_flagsAfter_c {f : Form} {s : State} (ht : (flagsAfter f s).c = true) (hs : s.flags.c = false) :
    ∃ o : Operand, f = .alu .add o := by
  rcases flagsAfter_cases f s with h | ⟨op, o, rfl⟩ | ⟨r, rfl⟩
  · rw [h, hs] at ht
    nomatch ht
  · cases op with
    | add => exact ⟨o, rfl⟩
    | and | xor | or => nomatch ht
  · nomatch hs.symm.trans ht

/-! ## The obligations -/

/-- Settles O44: `exec_cases`, with `run` and `ticks` of the completed state. -/
theorem everyInstructionCompletesOrRaisesItsListedFault : Obligations.EveryInstructionCompletesOrRaisesItsListedFault := by
  intro i s
  rcases exec_cases i s with ⟨k, hk, he⟩ | ⟨hn, he⟩
  · refine ⟨_, he, fun hn => ?_, fun k' hk' => ?_⟩
    · nomatch hk.symm.trans hn
    · cases hk.symm.trans hk'
      rfl
  · exact ⟨_, he, fun _ => ⟨rfl, rfl⟩, fun k hk => nomatch hn.symm.trans hk⟩

/-- Settles O45: a completed state has the arrays of `storeAll`, whose frame is that of its written addresses; a fault leaves them alone. -/
theorem onlyStoredBytesChange : Obligations.OnlyStoredBytesChange := by
  intro i s t h
  rcases exec_next_cases h with ⟨k, -, rfl⟩ | ⟨-, rfl⟩
  · exact ⟨fun _ _ => rfl, fun _ => rfl, fun _ => rfl⟩
  · exact ⟨fun _ ha => memRead_storeAll_of_not_mem s ha, fun hw => storeAll_mem hw s, fun hw => storeAll_io hw s⟩

/-- Settles O46: the register writes of a form are to the registers of its list, and `spAfter` moves `sp` only for the forms of R17. -/
theorem onlyListedRegistersChange : Obligations.OnlyListedRegistersChange := by
  intro i s t h
  rcases exec_next_cases h with ⟨k, -, rfl⟩ | ⟨-, rfl⟩
  · exact ⟨fun r _ => getReg_congr rfl r, fun _ => rfl⟩
  · refine ⟨fun r hr => ?_, spAfter_of_not_writesSp⟩
    rw [← map_fst_regWrites i.form s] at hr
    exact (getReg_congr rfl r).trans (getReg_setRegs_of_not_mem hr s)

/-- Settles O47: the flags of a completed state are `flagsAfter`; a fault leaves them alone. -/
theorem onlyTheAluChangesFlags : Obligations.OnlyTheAluChangesFlags := by
  intro i s t h
  rcases exec_next_cases h with ⟨k, -, rfl⟩ | ⟨-, rfl⟩
  · exact ⟨.inl rfl, fun _ _ => rfl, fun ht hs => nomatch hs.symm.trans ht⟩
  · refine ⟨flagsAfter_cases i.form s, fun r hr => ?_, add_of_flagsAfter_c⟩
    rw [hr]
    rfl

end Sys2Proof.Proofs.Frames

/-! PROOFS. The step (spec/40_dispatch_and_misc.md R65 to R67, R71; spec/60_exceptions.md): everything a cycle can be, and the rules
every cycle keeps. -/

namespace Sys2Proof.Proofs.Step

open Sys2Proof.Machine Sys2Proof.Proofs.Effect Sys2Proof.Proofs.Dispatch Sys2Proof.Proofs.Encoding

/-! ## The fetched instruction -/

theorem fetchedInstr_eq_instrOf (s : State) : ∃ (n8 : Byte) (n16 : Addr), s.fetchedInstr = instrOf s.fetchedOpcode n8 n16 := by
  unfold State.fetchedInstr
  split <;> exact ⟨_, _, rfl⟩

@[simp] theorem opcode_fetchedInstr (s : State) : s.fetchedInstr.opcode = s.fetchedOpcode := by
  obtain ⟨n8, n16, h⟩ := fetchedInstr_eq_instrOf s
  rw [h, opcode_instrOf]

theorem wellFormed_fetchedInstr (s : State) : WellFormed s.fetchedInstr = true := by
  obtain ⟨n8, n16, h⟩ := fetchedInstr_eq_instrOf s
  rw [h]
  exact (instrOf_spec _ n8 n16).2

theorem operandsRemain_iff (s : State) :
    s.operandsRemain = true ↔ s.pc.toNat + operandBytes (s.memRead s.pc) ≤ 0xFFFF := decide_eq_true_iff

theorem operandsRemain_eq_false_iff (s : State) :
    s.operandsRemain = false ↔ 0xFFFF < s.pc.toNat + operandBytes (s.memRead s.pc) := by
  rw [← Bool.not_eq_true, operandsRemain_iff, Nat.not_le]

/-- The decoder reads the fetched instruction from the three bytes at `pc`. -/
theorem decode_at_pc (s : State) :
    ∃ rest : List Byte, decode [s.memRead s.pc, s.memRead (s.pc + 1#16), s.memRead (s.pc + 2#16)] = .ok (s.fetchedInstr, rest) := by
  have hle := operandBytes_le_two s.fetchedOpcode
  unfold State.fetchedInstr
  match hk : operandBytes s.fetchedOpcode with
  | 0 => exact ⟨_, decode_no_operand _ hk⟩
  | 1 => exact ⟨_, decode_one_operand _ _ hk⟩
  | 2 => exact ⟨_, decode_two_operands _ _ _ hk⟩
  | k + 3 => omega

/-! ## Everything a cycle can be -/

theorem step_eq_exec {s : State} (hr : s.run = .running) (ho : s.operandsRemain = true) : step s = exec s.fetchedInstr s := by
  rcases step_cases s with ⟨_, _, _, hf, -⟩ | ⟨-, ho', -⟩ | ⟨-, -, hs⟩
  · nomatch hr.symm.trans hf
  · nomatch ho.symm.trans ho'
  · exact hs

theorem step_of_truncated {s : State} (hr : s.run = .running) (ho : s.operandsRemain = false) :
    step s = .next { s with run := .faulted .truncatedInstruction s.pc s.fetchedOpcode } := by
  rcases step_cases s with ⟨_, _, _, hf, -⟩ | ⟨-, -, hs⟩ | ⟨-, ho', -⟩
  · nomatch hr.symm.trans hf
  · exact hs
  · nomatch ho.symm.trans ho'

theorem step_of_raisesIn {s : State} {k : FaultKind} (hr : s.run = .running) (ho : s.operandsRemain = true)
    (hk : raisesIn s.fetchedInstr s = some k) : step s = .next { s with run := .faulted k s.pc s.fetchedOpcode } := by
  rw [step_eq_exec hr ho, ← opcode_fetchedInstr]
  rcases exec_cases s.fetchedInstr s with ⟨k', hk', he⟩ | ⟨hn, -⟩
  · obtain rfl : k = k' := Option.some.inj (hk.symm.trans hk')
    exact he
  · nomatch hk.symm.trans hn

theorem step_of_completes {s : State} (hr : s.run = .running) (ho : s.operandsRemain = true)
    (hn : raisesIn s.fetchedInstr s = none) : step s = .next (completed s.fetchedInstr.form s) := by
  rw [step_eq_exec hr ho]
  rcases exec_cases s.fetchedInstr s with ⟨k, hk, -⟩ | ⟨-, he⟩
  · nomatch hn.symm.trans hk
  · exact he

/-- A running core's cycle: a truncated fetch, the fault of the fetched instruction, or its completion. -/
theorem step_running_cases {s : State} (hr : s.run = .running) :
    (s.operandsRemain = false ∧ step s = .next { s with run := .faulted .truncatedInstruction s.pc s.fetchedOpcode }) ∨
      (s.operandsRemain = true ∧ ∃ k : FaultKind, raisesIn s.fetchedInstr s = some k ∧
        step s = .next { s with run := .faulted k s.pc s.fetchedOpcode }) ∨
      (s.operandsRemain = true ∧ raisesIn s.fetchedInstr s = none ∧ step s = .next (completed s.fetchedInstr.form s)) := by
  cases ho : s.operandsRemain with
  | false => exact .inl ⟨rfl, step_of_truncated hr ho⟩
  | true =>
    cases hk : raisesIn s.fetchedInstr s with
    | some k => exact .inr (.inl ⟨rfl, k, rfl, step_of_raisesIn hr ho hk⟩)
    | none => exact .inr (.inr ⟨rfl, rfl, step_of_completes hr ho hk⟩)

/-- A core that takes a step is running. -/
theorem running_of_step {s t : State} (h : step s = .next t) : s.run = .running := by
  rcases step_cases s with ⟨_, _, _, -, hs⟩ | ⟨hr, -⟩ | ⟨hr, -⟩
  · nomatch hs.symm.trans h
  · exact hr
  · exact hr

/-! ## Which faults the table allows -/

theorem raisesIn_eq_none_iff (i : Instr) (s : State) :
    raisesIn i s = none ↔ alwaysFaults i.form = false ∧ ∀ a ∈ storedAddrs i s, isProtected a = false := by
  cases hf : alwaysFaults i.form with
  | false =>
    have h := raisesIn_instr hf s
    rw [instr_form] at h
    rw [h]
    change (if (storedAddrs i s).any isProtected then _ else _) = none ↔ _
    generalize storedAddrs i s = l
    simp
  | true =>
    obtain ⟨k, hk⟩ := raisesIn_of_alwaysFaults hf s
    rw [instr_form] at hk
    simp [hk]

/-- A truncated fetch is one R132 allows: one operand byte at 0xFFFF, or two at 0xFFFE or 0xFFFF. -/
theorem mayRaise_truncated {s : State} (h : s.operandsRemain = false) : mayRaise .truncatedInstruction s.pc s.fetchedOpcode = true := by
  have hk : ∀ op : Byte, operandBytes op = 0 ∨
      (operandBytes op = 1 ∧ op ∈ ([0x06, 0x0E, 0x16, 0x1E, 0x26, 0x2E, 0x36, 0x3E, 0x20, 0xE0, 0xF0] : List Byte)) ∨
      (operandBytes op = 2 ∧ op ∈ ([0x01, 0x11, 0x21, 0x31, 0xC3, 0xEA, 0xCD] : List Byte)) := by decide
  have hpc := (operandsRemain_eq_false_iff s).1 h
  have hlt := s.pc.isLt
  change _ < _ + operandBytes s.fetchedOpcode at hpc
  unfold mayRaise
  rcases hk s.fetchedOpcode with h0 | ⟨h1, hmem⟩ | ⟨h2, hmem⟩
  · omega
  · have htop : s.pc = 0xFFFF := BitVec.eq_of_toNat_eq (show s.pc.toNat = 0xFFFF by omega)
    simp only [hmem, htop, decide_true, Bool.and_self, Bool.true_or]
  · have htop : 0xFFFE ≤ s.pc.toNat := by omega
    simp only [hmem, htop, decide_true, Bool.and_self, Bool.or_true]

theorem mayRaise_readOnlyViolation_of_two_bytes {pc : Addr} {op : Byte} (hop : op = 0xEA ∨ op = 0xCD) (hpc : pc.toNat + 2 ≤ 0xFFFF) :
    mayRaise .readOnlyViolation pc op = true := by
  have hlt : pc.toNat < 0xFFFE := by omega
  rcases hop with rfl | rfl <;> simp [mayRaise, hlt]

/-- The fault of a fetched instruction is one R132 allows for its opcode at its address. -/
theorem mayRaise_of_raisesIn {f : Form} {s : State} {k : FaultKind} (hk : raisesIn f.instr s = some k)
    (hwf : WellFormed f.instr = true) (hpc : s.pc.toNat + operandBytes f.instr.opcode ≤ 0xFFFF) :
    mayRaise k s.pc f.instr.opcode = true := by
  cases hf : alwaysFaults f with
  | true =>
    cases f with
    | halt | decAtHl =>
      cases hk
      rfl
    | ldAtHlN8 n8 =>
      cases hk
      change s.pc.toNat + 1 ≤ 0xFFFF at hpc
      have hne : s.pc ≠ 0xFFFF#16 := by bv_omega
      change mayRaise .invalidRegisterAccess s.pc 0x36 = true
      simp [mayRaise, hne]
    | unimplemented op =>
      cases hk
      exact hwf
    | _ => nomatch hf
  | false =>
    rw [raisesIn_instr hf] at hk
    split at hk
    case isFalse => nomatch hk
    case isTrue hany =>
      cases hk
      cases f with
      | ldAtHlReg r => cases r <;> rfl
      | ldAtHlStepA k => cases k <;> rfl
      | ldAtN16A n16 =>
        change s.pc.toNat + 2 ≤ 0xFFFF at hpc
        exact mayRaise_readOnlyViolation_of_two_bytes (.inl rfl) hpc
      | callN16 n16 =>
        change s.pc.toNat + 2 ≤ 0xFFFF at hpc
        exact mayRaise_readOnlyViolation_of_two_bytes (.inr rfl) hpc
      | ldhAtN8A n8 => simp [formAccesses, Access.writtenAddr] at hany
      | ldAtCA => simp [formAccesses, Access.writtenAddr] at hany
      | alu op o => cases o <;> nomatch hany
      | retNc =>
        rw [formAccesses_retNc] at hany
        split at hany <;> nomatch hany
      | _ => nomatch hany

/-- Everything a next state of a step can be: the state with a fault R132 allows taken, or the completion of the fetched instruction. -/
theorem step_next_cases {s t : State} (h : step s = .next t) :
    (∃ k : FaultKind, mayRaise k s.pc s.fetchedOpcode = true ∧ t = { s with run := .faulted k s.pc s.fetchedOpcode }) ∨
      (s.operandsRemain = true ∧ raisesIn s.fetchedInstr s = none ∧ t = completed s.fetchedInstr.form s) := by
  rcases step_running_cases (running_of_step h) with ⟨ho, hs⟩ | ⟨ho, k, hk, hs⟩ | ⟨ho, hn, hs⟩ <;> cases hs.symm.trans h
  · exact .inl ⟨_, mayRaise_truncated ho, rfl⟩
  · refine .inl ⟨k, ?_, rfl⟩
    have hm := mayRaise_of_raisesIn (f := s.fetchedInstr.form) (s := s) (k := k)
    rw [instr_form, opcode_fetchedInstr] at hm
    exact hm hk (wellFormed_fetchedInstr s) ((operandsRemain_iff s).1 ho)
  · exact .inr ⟨ho, hn, rfl⟩

/-- A completing cycle keeps the core running. -/
theorem run_completed {s : State} (f : Form) (hr : s.run = .running) : (completed f s).run = .running := hr

/-- R158: a form that can complete costs 4 to 24 ticks. -/
theorem formCost_bounds {f : Form} (hf : alwaysFaults f = false) (s : State) : 4 ≤ formCost f s ∧ formCost f s ≤ 24 := by
  cases f with
  | halt | decAtHl | ldAtHlN8 _ | unimplemented _ => nomatch hf
  | alu op o => cases o <;> simp [formCost]
  | jpNzR8 r8 =>
    rw [formCost_jpNzR8]
    split <;> decide
  | retNc =>
    rw [formCost_retNc]
    split <;> decide
  | _ => simp [formCost]

/-- No execution truncates: that fault is the fetch's alone (R67). -/
theorem raisesIn_ne_truncated (f : Form) (s : State) : raisesIn f.instr s ≠ some .truncatedInstruction := by
  cases hf : alwaysFaults f with
  | true =>
    cases f with
    | halt | decAtHl | ldAtHlN8 _ | unimplemented _ => nofun
    | _ => nomatch hf
  | false =>
    rw [raisesIn_instr hf]
    split <;> nofun

/-- When the three bytes at `pc` begin with an encoding, the decoder reads its instruction from them. -/
theorem decode_of_encode_at_pc {s : State} {i : Instr} (hi : WellFormed i = true)
    (hbytes : ∀ (j : Nat) (v : Byte), (encode i)[j]? = some v → s.memRead (s.pc + BitVec.ofNat 16 j) = v) :
    ∃ rest : List Byte, decode [s.memRead s.pc, s.memRead (s.pc + 1#16), s.memRead (s.pc + 2#16)] = .ok (i, rest) := by
  have hlen : (encode i).length ≤ 3 := by
    have := operandBytes_le_two i.opcode
    rw [length_encode hi]
    omega
  have hprefix : encode i <+: [s.memRead s.pc, s.memRead (s.pc + 1#16), s.memRead (s.pc + 2#16)] := by
    rw [List.prefix_iff_getElem?]
    intro j hj
    have hb := hbytes j _ (List.getElem?_eq_getElem hj)
    match j with
    | 0 => simpa using hb
    | 1 | 2 => exact congrArg some hb
    | j + 3 => omega
  obtain ⟨rest, hrest⟩ := hprefix
  exact ⟨rest, hrest ▸ decodeInvertsEncode i hi rest⟩

/-! ## The obligations -/

/-- Settles O49: a fault leaves the arrays and its record names the byte at `pc` with a kind `mayRaise` allows; a completing cycle only stores. -/
theorem stepKeepsTheInvariant : Obligations.StepKeepsTheInvariant := by
  rintro s t ⟨hwf, -⟩ h
  rcases step_next_cases h with ⟨k, hk, rfl⟩ | ⟨-, -, rfl⟩
  · refine ⟨hwf, ?_⟩
    change (decide (s.pc = s.pc) && decide (s.fetchedOpcode = s.fetchedOpcode) && mayRaise k s.pc s.fetchedOpcode) = true
    simp [hk]
  · refine ⟨wf_storeAll (formAccesses s.fetchedInstr.form s) hwf, ?_⟩
    unfold State.runConsistent
    rw [run_completed _ (running_of_step h)]

/-- Settles O50: a completing cycle stores to no protected address, and no store reaches the bytes of `mem` under the window. -/
theorem protectedAndShadowedBytesNeverChange : Obligations.ProtectedAndShadowedBytesNeverChange := by
  intro s t h
  rcases step_next_cases h with ⟨k, -, rfl⟩ | ⟨-, hn, rfl⟩
  · exact ⟨fun _ _ _ => rfl, fun _ _ _ => rfl⟩
  · refine ⟨fun a lo hi => ?_, fun a lo hi => ?_⟩
    · have hp : isProtected a = true := (isProtected_iff a).2 ⟨lo, hi⟩
      refine memRead_storeAll_of_not_mem s fun ha => ?_
      nomatch hp.symm.trans (((raisesIn_eq_none_iff _ s).1 hn).2 a ha)
    · exact read_storeAll_shadowed _ s ((inWindow_iff a).2 ⟨lo, hi⟩)

/-- Settles O51: a completing cycle adds the cost of its form, which R158 bounds. -/
theorem ticksNeverDecrease : Obligations.TicksNeverDecrease := by
  intro s t h
  rcases step_next_cases h with ⟨k, -, rfl⟩ | ⟨-, hn, rfl⟩
  · exact ⟨nofun, fun _ => rfl⟩
  · obtain ⟨lo, hi⟩ := formCost_bounds ((raisesIn_eq_none_iff _ s).1 hn).1 s
    exact ⟨fun _ => ⟨Nat.add_le_add_left lo _, Nat.add_le_add_left hi _⟩, fun hr => absurd (running_of_step h) hr⟩

/-- Settles O43: of the next states of a step only a fault's is not running. -/
theorem faultingCycleChangesOnlyRun : Obligations.FaultingCycleChangesOnlyRun := by
  intro s t h hr
  rcases step_next_cases h with ⟨k, -, rfl⟩ | ⟨-, -, rfl⟩
  · rfl
  · exact absurd (running_of_step h) hr

/-- Settles O41: the three outcomes of a running core's cycle are next states. -/
theorem runningCoreTakesACycle : Obligations.RunningCoreTakesACycle := by
  intro s hr
  rcases step_running_cases hr with ⟨-, hs⟩ | ⟨-, k, -, hs⟩ | ⟨-, -, hs⟩
  · exact ⟨_, hs, .inr ⟨_, rfl⟩⟩
  · exact ⟨_, hs, .inr ⟨k, rfl⟩⟩
  · exact ⟨_, hs, .inl hr⟩

/-- Settles O40: the fetch truncates exactly when an operand byte does not remain, and no execution raises that fault. -/
theorem truncationIsExactlyTheShortFetch : Obligations.TruncationIsExactlyTheShortFetch := by
  intro s hr
  rw [← operandsRemain_iff, ← operandsRemain_eq_false_iff]
  rcases step_running_cases hr with ⟨ho, hs⟩ | ⟨ho, k, hk, hs⟩ | ⟨ho, -, hs⟩
  · exact ⟨fun _ => hs, fun ho' => nomatch ho.symm.trans ho'⟩
  · refine ⟨fun ho' => (nomatch ho.symm.trans ho'), fun _ t p op h hrun => ?_⟩
    cases hs.symm.trans h
    cases hrun
    exact raisesIn_ne_truncated s.fetchedInstr.form s (by rwa [instr_form])
  · refine ⟨fun ho' => (nomatch ho.symm.trans ho'), fun _ t p op h hrun => ?_⟩
    cases hs.symm.trans h
    nomatch hr.symm.trans hrun

/-- Settles O42: `step` looks at `run` first. -/
theorem faultedCoreTakesNoStep : Obligations.FaultedCoreTakesNoStep := by
  intro s k p op hf
  refine ⟨step_of_faulted hf, fun t h => ?_⟩
  nomatch (step_of_faulted hf).symm.trans h

/-- Settles O39: what the decoder reads at `pc` is the fetched instruction; and the bytes of an encoding at `pc` decode to its instruction. -/
theorem stepRunsTheDecodedInstruction : Obligations.StepRunsTheDecodedInstruction := by
  have hdecoded : ∀ (s : State) (i : Instr) (rest : List Byte), s.run = .running →
      s.pc.toNat + operandBytes (s.memRead s.pc) ≤ 0xFFFF →
      decode [s.memRead s.pc, s.memRead (s.pc + 1#16), s.memRead (s.pc + 2#16)] = .ok (i, rest) → step s = exec i s := by
    intro s i rest hr ho hdec
    obtain ⟨rest', h⟩ := decode_at_pc s
    obtain rfl : s.fetchedInstr = i := (Prod.mk.inj (Except.ok.inj (h.symm.trans hdec))).1
    exact step_eq_exec hr ((operandsRemain_iff s).2 ho)
  refine ⟨fun s i hr hi hlen hbytes => ?_, hdecoded⟩
  obtain ⟨rest, hdec⟩ := decode_of_encode_at_pc hi hbytes
  have hop : s.memRead s.pc = i.opcode := by simpa using hbytes 0 i.opcode rfl
  refine hdecoded s i rest hr ?_ hdec
  rw [length_encode hi] at hlen
  rw [hop]
  omega

/-- Settles O56: the record is emitted exactly for a step to a running state. -/
theorem traceRecordsCompletingCycles : Obligations.TraceRecordsCompletingCycles := by
  intro s t h
  refine ⟨fun hr => ⟨Config.traceMnemonic s.fetchedOpcode, ?_⟩, fun hr => ?_⟩ <;> simp only [State.traceRecord, h, hr] <;> rfl

end Sys2Proof.Proofs.Step

/-! PROOFS. What a cycle can observe: two states with the same registers, `F.z`, `F.c`, `pc`, `sp` and bytes as `MemRead` gives them take the same
cycle. `ticks` (spec/10_state.md R18), `F.n` and `F.h` (R20) and the bytes of `mem` under the I/O window (R21, R36) are not among these. -/

namespace Sys2Proof.Proofs.Observation

open Sys2Proof.Machine Sys2Proof.Proofs.Effect Sys2Proof.Proofs.RegisterTransfer Sys2Proof.Proofs.Step

/-- Everything a cycle of a running core reads is the same in both states. -/
structure SameInputs (s s' : State) : Prop where
  regs : s'.regs = s.regs
  z : s'.flags.z = s.flags.z
  c : s'.flags.c = s.flags.c
  pc : s'.pc = s.pc
  sp : s'.sp = s.sp
  memRead : ∀ a : Addr, s'.memRead a = s.memRead a

namespace SameInputs

variable {s s' : State} (h : SameInputs s s')
include h

/-! ## What an instruction reads -/

theorem getReg (r : Reg) : s'.getReg r = s.getReg r := getReg_congr h.regs r

theorem hl : s'.hl = s.hl := by simp only [State.hl, h.regs]

theorem operand (o : Operand) : s'.operand o = s.operand o := by
  cases o with
  | reg r => exact h.getReg r
  | atHl => exact (h.memRead s'.hl).trans (by rw [h.hl]; rfl)

theorem readAccess (a : Addr) : s'.readAccess a = s.readAccess a := congrArg (Access.read a) (h.memRead a)

theorem condHolds (c : Cond) : condHolds s'.flags c = condHolds s.flags c := by
  cases c <;> simp only [Machine.condHolds, h.z, h.c]

/-! ## What an instruction does -/

theorem formAccesses (f : Form) : formAccesses f s' = formAccesses f s := by
  cases f with
  | alu op o => cases o <;> simp only [Machine.formAccesses, h.hl, h.readAccess]
  | _ => simp only [Machine.formAccesses, h.hl, h.getReg, h.regs, h.pc, h.sp, h.readAccess, h.condHolds]

theorem regWrites (f : Form) : regWrites f s' = regWrites f s := by
  cases f with
  | ldPairN16 p n16 => cases p <;> rfl
  | decReg r => simp only [Effect.regWrites, h.getReg, aluDec]
  | _ => simp only [Effect.regWrites, h.hl, h.getReg, h.regs, h.memRead, h.operand]

theorem pcAfter (f : Form) : pcAfter f s' = pcAfter f s := by
  cases f <;> simp only [Effect.pcAfter, h.pc, h.z, h.c, h.sp, h.memRead]

theorem spAfter (f : Form) : spAfter f s' = spAfter f s := by
  cases f with
  | ldPairN16 p n16 => cases p <;> simp only [Effect.spAfter, h.sp]
  | _ => simp only [Effect.spAfter, h.sp, h.c]

theorem formCost (f : Form) : formCost f s' = formCost f s := by
  cases f with
  | alu op o => cases o <;> rfl
  | _ => simp only [Machine.formCost, h.z, h.c]

theorem flagsAfter_z (f : Form) : (flagsAfter f s').z = (flagsAfter f s).z := by
  cases f with
  | alu op o => simp only [flagsAfter, h.regs, h.operand]
  | decReg r => simp only [flagsAfter, aluDec, h.getReg]
  | _ => exact h.z

theorem flagsAfter_c (f : Form) : (flagsAfter f s').c = (flagsAfter f s).c := by
  cases f with
  | alu op o => simp only [flagsAfter, h.regs, h.operand]
  | decReg r => exact h.c
  | _ => exact h.c

theorem flagsAfter_eq (hf : s'.flags = s.flags) (f : Form) : flagsAfter f s' = flagsAfter f s := by
  cases f with
  | alu op o => simp only [flagsAfter, h.regs, h.operand]
  | decReg r => simp only [flagsAfter, h.getReg, hf]
  | _ => exact hf

theorem raisesIn (i : Instr) : raisesIn i s' = raisesIn i s := by
  unfold Machine.raisesIn storedAddrs
  rw [h.formAccesses]

/-! ## What the fetch reads -/

theorem fetchedOpcode : s'.fetchedOpcode = s.fetchedOpcode := (h.memRead s'.pc).trans (by rw [h.pc]; rfl)

theorem operandsRemain : s'.operandsRemain = s.operandsRemain := by
  simp only [State.operandsRemain, h.pc, h.fetchedOpcode]

theorem fetchedInstr : s'.fetchedInstr = s.fetchedInstr := by
  simp only [State.fetchedInstr, h.pc, h.fetchedOpcode, h.memRead]

end SameInputs

/-! ## What a cycle writes -/

theorem setRegs_regs_congr {s s' : State} (h : s'.regs = s.regs) (l : List (Reg × Byte)) : (setRegs l s').regs = (setRegs l s).regs := by
  induction l generalizing s s' with
  | nil => exact h
  | cons w l ih =>
    refine ih ?_
    obtain ⟨r, v⟩ := w
    cases r <;> simp only [State.setReg, h]

theorem memRead_storeAll_congr {s s' : State} (h : ∀ a : Addr, s'.memRead a = s.memRead a) (l : List Access) (a : Addr) :
    (storeAll l s').memRead a = (storeAll l s).memRead a := by
  induction l generalizing s s' with
  | nil => exact h a
  | cons x l ih =>
    cases x with
    | read b w => exact ih h
    | write b w => exact ih fun c => by rw [memRead_placeByte, memRead_placeByte, h]

theorem storeAll_mem_congr {s s' : State} (h : s'.mem = s.mem) (l : List Access) : (storeAll l s').mem = (storeAll l s).mem := by
  induction l generalizing s s' with
  | nil => exact h
  | cons x l ih =>
    cases x with
    | read b w => exact ih h
    | write b w =>
      refine ih ?_
      unfold State.placeByte
      split <;> simp only [h]

theorem storeAll_io_congr {s s' : State} (h : s'.io = s.io) (l : List Access) : (storeAll l s').io = (storeAll l s).io := by
  induction l generalizing s s' with
  | nil => exact h
  | cons x l ih =>
    cases x with
    | read b w => exact ih h
    | write b w =>
      refine ih ?_
      unfold State.placeByte
      split <;> simp only [h]

/-- Both completions leave the same registers, flags read, `pc`, `sp` and bytes. -/
theorem sameInputs_completed {s s' : State} (h : SameInputs s s') (f : Form) : SameInputs (completed f s) (completed f s') where
  regs := by simp only [completed, h.regWrites, setRegs_regs_congr h.regs]
  z := h.flagsAfter_z f
  c := h.flagsAfter_c f
  pc := h.pcAfter f
  sp := h.spAfter f
  memRead a := by
    rw [Frames.memRead_completed, Frames.memRead_completed, h.formAccesses]
    exact memRead_storeAll_congr h.memRead _ a

/-- `t` and `t'` follow from `s` and `s'` by the same cycle: they agree in what a cycle reads, and in every other part where `s` and `s'` did,
with the same distance of `ticks`. -/
structure SameCycle (s s' t t' : State) : Prop where
  inputs : SameInputs t t'
  run : t'.run = t.run
  flags : s'.flags = s.flags → t'.flags = t.flags
  mem : s'.mem = s.mem → t'.mem = t.mem
  io : s'.io = s.io → t'.io = t.io
  ticks : ∀ k : Nat, s'.ticks = s.ticks + k → t'.ticks = t.ticks + k

theorem sameCycle_completed {s s' : State} (h : SameInputs s s') (hr : s'.run = s.run) (f : Form) :
    SameCycle s s' (completed f s) (completed f s') where
  inputs := sameInputs_completed h f
  run := hr
  flags hf := h.flagsAfter_eq hf f
  mem hm := by simp only [completed, h.formAccesses, storeAll_mem_congr hm]
  io hi := by simp only [completed, h.formAccesses, storeAll_io_congr hi]
  ticks k hk := by
    simp only [completed, h.formCost, hk]
    omega

theorem sameCycle_fault {s s' : State} (h : SameInputs s s') (k : FaultKind) :
    SameCycle s s' { s with run := .faulted k s.pc s.fetchedOpcode } { s' with run := .faulted k s'.pc s'.fetchedOpcode } where
  inputs := ⟨h.regs, h.z, h.c, h.pc, h.sp, h.memRead⟩
  run := by rw [h.pc, h.fetchedOpcode]
  flags := id
  mem := id
  io := id
  ticks _ := id

/-- Two running cores with the same inputs take the same cycle. -/
theorem step_congr {s s' t : State} (h : SameInputs s s') (hr : s'.run = s.run) (ht : step s = .next t) :
    ∃ t' : State, step s' = .next t' ∧ SameCycle s s' t t' := by
  have hrun := running_of_step ht
  have hrun' := hr.trans hrun
  rcases step_running_cases hrun with ⟨ho, hs⟩ | ⟨ho, k, hk, hs⟩ | ⟨ho, hn, hs⟩ <;>
    cases hs.symm.trans ht <;> rw [← h.operandsRemain] at ho
  · exact ⟨_, step_of_truncated hrun' ho, sameCycle_fault h _⟩
  · exact ⟨_, step_of_raisesIn hrun' ho (by rw [h.fetchedInstr, h.raisesIn, hk]), sameCycle_fault h k⟩
  · refine ⟨_, step_of_completes hrun' ho (by rw [h.fetchedInstr, h.raisesIn, hn]), ?_⟩
    rw [h.fetchedInstr]
    exact sameCycle_completed h hr _

theorem eq_withTicks_of_fields {t u : State} (hregs : t.regs = u.regs) (hflags : t.flags = u.flags) (hpc : t.pc = u.pc) (hsp : t.sp = u.sp) {n : Nat}
    (hticks : t.ticks = n) (hmem : t.mem = u.mem) (hio : t.io = u.io) (hrun : t.run = u.run) : t = { u with ticks := n } := by
  rw [← hregs, ← hflags, ← hpc, ← hsp, ← hticks, ← hmem, ← hio, ← hrun]

theorem sameInputs_of_agreeOffShadow {s s' : State} (h : AgreeOffShadow s s') : SameInputs s s' := by
  obtain ⟨hregs, hflags, hpc, hsp, -, hio, -, hmem⟩ := h
  refine ⟨hregs.symm, by rw [hflags], by rw [hflags], hpc.symm, hsp.symm, fun a => ?_⟩
  unfold State.memRead
  cases ha : inWindow a with
  | true => simp only [if_true, hio]
  | false => exact (hmem a ha).symm

/-! ## The obligations -/

/-- Settles O52: `ticks` is no input of a cycle, and every cycle adds to it an amount fixed by the inputs. -/
theorem ticksCannotBeObserved : Obligations.TicksCannotBeObserved := by
  intro s t k ht
  have hin : SameInputs s { s with ticks := s.ticks + k } := ⟨rfl, rfl, rfl, rfl, rfl, fun _ => rfl⟩
  obtain ⟨t', ht', hc⟩ := step_congr hin rfl ht
  rw [ht', eq_withTicks_of_fields hc.inputs.regs (hc.flags rfl) hc.inputs.pc hc.inputs.sp (hc.ticks k rfl) (hc.mem rfl) (hc.io rfl) hc.run]

/-- Settles O53: the shadowed bytes are no input of a cycle, since `MemRead` gives `io` there; and off the window the bytes of `mem` are those of
`MemRead`. -/
theorem shadowedBytesCannotBeObserved : Obligations.ShadowedBytesCannotBeObserved := by
  intro s s' t h ht
  have hin := sameInputs_of_agreeOffShadow h
  obtain ⟨-, hflags, -, -, hticks, hio, hrun, -⟩ := h
  obtain ⟨t', ht', hc⟩ := step_congr hin hrun.symm ht
  refine ⟨t', ht', hc.inputs.regs.symm, (hc.flags hflags.symm).symm, hc.inputs.pc.symm, hc.inputs.sp.symm, (hc.ticks 0 hticks.symm).symm,
    (hc.io hio.symm).symm, hc.run.symm, fun a ha => ?_⟩
  have hread := (hc.inputs.memRead a).symm
  simp only [State.memRead, ha] at hread
  exact hread

/-- Settles O54: `F.n` and `F.h` are no input of a cycle. -/
theorem subtractAndHalfCarryCannotBeObserved : Obligations.SubtractAndHalfCarryCannotBeObserved := by
  intro s s' t h ht
  obtain ⟨hregs, hz, hc, hpc, hsp, hticks, hmem, hio, hrun⟩ := h
  have hin : SameInputs s s' := ⟨hregs.symm, hz.symm, hc.symm, hpc.symm, hsp.symm, memRead_congr hmem.symm hio.symm⟩
  obtain ⟨t', ht', hcyc⟩ := step_congr hin hrun.symm ht
  exact ⟨t', ht', hcyc.inputs.regs.symm, hcyc.inputs.z.symm, hcyc.inputs.c.symm, hcyc.inputs.pc.symm, hcyc.inputs.sp.symm,
    (hcyc.ticks 0 hticks.symm).symm, (hcyc.mem hmem.symm).symm, (hcyc.io hio.symm).symm, hcyc.run.symm⟩

end Sys2Proof.Proofs.Observation

/-! PROOFS. Stores and what is seen of them: by the next fetch (spec/20_memory.md R46) and as I/O-window events (spec/60_exceptions.md R147). -/

namespace Sys2Proof.Proofs.Outputs

open Sys2Proof.Machine Sys2Proof.Proofs.Effect Sys2Proof.Proofs.Frames Sys2Proof.Proofs.Step

/-- An instruction that leaves the core running has completed. -/
theorem eq_completed_of_exec {i : Instr} {s t : State} (h : exec i s = .next t) (hr : t.run = .running) : t = completed i.form s := by
  rcases exec_next_cases h with ⟨k, -, rfl⟩ | ⟨-, rfl⟩
  · nomatch hr
  · rfl

/-- Every byte a completed instruction wrote is the byte read there. -/
theorem memRead_completed_of_write {f : Form} {s : State} {a : Addr} {v : Byte} (h : Access.write a v ∈ formAccesses f s) :
    (completed f s).memRead a = v :=
  memRead_storeAll_of_mem (nodup_storedAddrs f s) s h

/-- A completing cycle makes the accesses of its fetch and then those of its instruction (R31). -/
theorem cycleAccesses_of_completes {s : State} (hr : s.run = .running) (ho : s.operandsRemain = true)
    (hn : raisesIn s.fetchedInstr s = none) : s.cycleAccesses = s.fetchAccesses ++ formAccesses s.fetchedInstr.form s := by
  have he : exec s.fetchedInstr s = .next (completed s.fetchedInstr.form s) :=
    (step_eq_exec hr ho).symm.trans (step_of_completes hr ho hn)
  have hrun : (completed s.fetchedInstr.form s).run = .running := run_completed _ hr
  simp only [State.cycleAccesses, hr, fetch_remaining ho, he, hrun, if_true]

/-! ## The obligations -/

/-- Settles O55: a completed instruction's writes are what is read afterwards, at the new `pc` too; for `LD (HL),A` that address is the old `HL`. -/
theorem storeIsSeenByTheNextFetch : Obligations.StoreIsSeenByTheNextFetch := by
  refine ⟨fun i s t h hr => ?_, fun s t hhl h hr => ?_⟩ <;> obtain rfl := eq_completed_of_exec h hr
  · refine ⟨fun a ha => ?_, fun a v => memRead_completed_of_write, fun v => memRead_completed_of_write⟩
    obtain ⟨v, hv⟩ := mem_writtenAddrs.1 ha
    exact ⟨v, hv, memRead_completed_of_write hv⟩
  · have hw : Access.write (s.pc + 1#16) s.regs.a ∈ formAccesses (.ldAtHlReg .a) s := by
      rw [← hhl]
      exact List.mem_singleton_self _
    exact memRead_completed_of_write hw

/-- Settles O57: events are the accesses filtered by the window, and a byte changes only by a write among the accesses of a completing cycle. -/
theorem windowChangesHaveAnIoEvent : Obligations.WindowChangesHaveAnIoEvent := by
  intro s t h
  refine ⟨fun x hx => (List.mem_filter.1 hx).2, fun a ha hne => List.mem_filter.2 ⟨?_, ha⟩⟩
  rcases step_next_cases h with ⟨k, -, rfl⟩ | ⟨ho, hn, rfl⟩
  · exact absurd rfl hne
  · rw [cycleAccesses_of_completes (running_of_step h) ho hn]
    exact List.mem_append_right _ ((memRead_storeAll_cases _ s a).resolve_left hne)

end Sys2Proof.Proofs.Outputs

/-! PROOFS. Reset, the loader, `HL`, and the memory operations (spec/10_state.md R14, R27; spec/20_memory.md R32 to R40; spec/70_reset_and_hazards.md
R152). -/

namespace Sys2Proof.Proofs.MemoryMap

open Sys2Proof.Machine Sys2Proof.Proofs.RegisterTransfer Sys2Proof.Proofs.Effect

/-! ## The regions by value -/

theorem inWindow_eq_false_iff (a : Addr) : inWindow a = false ↔ a.toNat < 0xFF00 ∨ 0xFF7F < a.toNat := by
  rw [← Bool.not_eq_true, inWindow_iff]
  omega

theorem memRead_of_inWindow (s : State) {a : Addr} (h : inWindow a = true) : s.memRead a = s.io.read (ioIndex a) := by
  simp [State.memRead, h]

theorem memRead_of_not_inWindow (s : State) {a : Addr} (h : inWindow a = false) : s.memRead a = s.mem.read a.toNat := by
  simp [State.memRead, h]

/-! ## The loader -/

/-- The loader copies byte `i - a` to index `i`, up to the top of the address space. -/
theorem read_load (vs : List Byte) (m : Memory) (a i : Nat) :
    (Memory.load m a vs).read i = if a ≤ i ∧ i < Config.memSize then (vs[i - a]?).getD (m.read i) else m.read i := by
  induction vs generalizing m a with
  | nil => simp [Memory.load]
  | cons v vs ih =>
    unfold Memory.load
    split
    case isTrue ha =>
      rw [ih, Memory.read_write]
      rcases lt_trichotomy i a with hlt | rfl | hgt
      · rw [if_neg (by omega), if_neg (by omega), if_neg (by omega)]
      · rw [if_neg (by omega), if_pos rfl, if_pos ⟨le_rfl, ha⟩, Nat.sub_self]
        rfl
      · have hiff : (a + 1 ≤ i ∧ i < Config.memSize) ↔ (a ≤ i ∧ i < Config.memSize) := by omega
        have hsub : i - a = i - (a + 1) + 1 := by omega
        simp only [hiff, hsub, if_neg hgt.ne', List.getElem?_cons_succ]
    case isFalse ha =>
      rw [if_neg (by omega)]

/-! ## The stack -/

/-- A push fails where one of its two bytes is protected (R40). -/
theorem push16_protected {s : State} (v : Addr) (h : isProtected (s.sp - 1#16) = true ∨ isProtected (s.sp - 2#16) = true) :
    s.push16 v = .error .readOnlyViolation := by
  rcases push16_cases s v with ⟨he, -⟩ | ⟨h1, h2, -⟩
  · exact he
  · simp [h1, h2] at h

/-- A push succeeds where both bytes are writable. -/
theorem push16_writable {s : State} (v : Addr) (h1 : isProtected (s.sp - 1#16) = false) (h2 : isProtected (s.sp - 2#16) = false) :
    ∃ t : State, s.push16 v = .ok t := by
  rcases push16_cases s v with ⟨-, h⟩ | ⟨-, -, -, t, -, -, he⟩
  · simp [h1, h2] at h
  · exact ⟨t, he⟩

/-! ## The obligations -/

/-- Settles O1: the fields of the reset state, as written out in `State.reset`. -/
theorem resetLeavesTheListedValues : Obligations.ResetLeavesTheListedValues :=
  ⟨rfl, fun _ => ⟨rfl, rfl, fun r => by cases r <;> rfl, rfl, rfl, rfl, rfl, rfl, rfl, fun _ => rfl, fun _ => rfl, fun _ => rfl⟩⟩

/-- Settles O2: the image is loaded from index 0 over an empty array, and every write keeps the canonical form. -/
theorem loaderCopiesTheImage : Obligations.LoaderCopiesTheImage := by
  intro image
  have hread : ∀ i : Nat, (State.resetWithImage image).mem.read i = if i < Config.memSize then (image[i]?).getD 0 else 0 := by
    intro i
    refine (read_load image [] 0 i).trans ?_
    simp only [Nat.zero_le, true_and, Nat.sub_zero]
    rfl
  refine ⟨fun i hi v hv => ?_, fun i hi => ?_, Memory.wf_load image [] 0 rfl⟩
  · rw [hread, if_pos hi, hv]
    rfl
  · rw [hread, hi]
    exact ite_self 0

/-- Settles O4: `HL` joins `H` and `L` (`join16_toNat`), and a write of it splits the value (`hi8_toNat`, `lo8_toNat`). -/
theorem hlIsComposedOfHAndL : Obligations.HlIsComposedOfHAndL := fun s v x =>
  ⟨join16_toNat s.regs.h s.regs.l, hl_setHl s v, hi8_toNat v, lo8_toNat v, fun _ hh hl => getReg_setHl_other s v hh hl,
    join16_toNat x s.regs.l, join16_toNat s.regs.h x⟩

/-- Settles O5: the two branches of `MemRead`; in the window the index is the distance from 0xFF00. -/
theorem memReadFollowsTheAddressMap : Obligations.MemReadFollowsTheAddressMap := by
  intro s a
  refine ⟨fun lo hi j hj => ?_, fun h => memRead_of_not_inWindow s ((inWindow_eq_false_iff a).2 h)⟩
  have hw : inWindow a = true := (inWindow_iff a).2 ⟨lo, hi⟩
  obtain rfl : ioIndex a = j := Nat.add_right_cancel ((ioIndex_eq hw).trans hj.symm)
  exact memRead_of_inWindow s hw

/-- Settles O6: a write fails exactly on the protected range, and otherwise places its byte in the array of its region. -/
theorem memWriteFollowsTheAddressMap : Obligations.MemWriteFollowsTheAddressMap := by
  intro s a v
  refine ⟨fun lo hi => memWrite_protected s v ((isProtected_iff a).2 ⟨lo, hi⟩), fun h => ?_⟩
  obtain ⟨t, ht⟩ := memWrite_writable s v ((isProtected_eq_false_iff a).2 h)
  refine ⟨t, ht, storedAt_of_memWrite ht rfl rfl, fun hw j => ?_, memWrite_regs ht, memWrite_flags ht, memWrite_pc ht, memWrite_sp ht,
    memWrite_ticks ht, memWrite_run ht⟩
  rw [eq_placeByte_of_memWrite ht, placeByte_of_not_inWindow s v ((inWindow_eq_false_iff a).2 hw)]
  exact Memory.read_write s.mem a.toNat j v

/-- Settles O7: a push writes its two bytes below `sp` (`push16_ok`), and the pop joins the bytes it reads there. -/
theorem popInvertsPush : Obligations.PopInvertsPush := by
  intro s v
  refine ⟨push16_protected v, fun h1 h2 => ?_⟩
  obtain ⟨t, ht⟩ := push16_writable v h1 h2
  obtain ⟨hsp, -, -, -, -, -, hread⟩ := push16_ok ht
  have hne : s.sp - 1#16 ≠ s.sp - 2#16 := by bv_omega
  have hhi : t.memRead (s.sp - 2#16) = hi8 v := by rw [hread, if_pos rfl]
  have hlo : t.memRead (s.sp - 1#16) = lo8 v := by rw [hread, if_neg hne, if_pos rfl]
  refine ⟨t, ht, hsp, hhi, hlo, fun b hb1 hb2 => by rw [hread, if_neg hb2, if_neg hb1], ?_⟩
  have hback1 : s.sp - 2#16 + 1#16 = s.sp - 1#16 := by bv_omega
  have hback2 : s.sp - 2#16 + 2#16 = s.sp := by bv_omega
  rw [pop16_eq, hsp, hback1, hback2, hhi, hlo, join16_hi8_lo8]

/-- Settles O48: the arrays are `INIT_MEM` and the empty one, and the core is running. -/
theorem invariantHoldsAfterReset : Obligations.InvariantHoldsAfterReset := by
  intro init h
  refine ⟨?_, rfl⟩
  change (Memory.wf Config.memSize init && Memory.wf Config.ioSize []) = true
  rw [h]
  rfl

end Sys2Proof.Proofs.MemoryMap

/-! PROOFS. The results of single instructions of the loop, the register transfer unit and the control flow unit (spec/40_dispatch_and_misc.md R74,
spec/41_register_transfer.md R82 to R93, spec/43_control_flow.md R116 to R121), and the two forms of the ADD carry (spec/42_alu.md R106). -/

namespace Sys2Proof.Proofs.Results

open Sys2Proof.Machine Sys2Proof.Proofs.Dispatch Sys2Proof.Proofs.RegisterTransfer Sys2Proof.Proofs.ControlFlow Sys2Proof.Proofs.MemoryMap

/-! ## The loop -/

/-- Settles O10: the meaning of `DI` is `advance` by one byte at a cost of 4. -/
theorem diOnlyAdvances : Obligations.DiOnlyAdvances :=
  ⟨rfl, fun s => (exec_eq_execForm .di s).trans (advance_eq_next 1#16 4 s)⟩

/-- Settles O16: neither `getCode` nor `setCode` takes code 6, so both meanings take that fault. -/
theorem codeSixFormsAlwaysFault : Obligations.CodeSixFormsAlwaysFault := by
  refine ⟨rfl, fun _ => rfl, fun s => ?_, fun n8 s => ?_⟩ <;> rw [exec_eq_execForm]
  · exact (decCode_atHl 0x35 s).trans (raise_eq_next .invalidRegisterAccess 0x35 s)
  · exact (ldCodeN8_atHl 0x36 n8 s).trans (raise_eq_next .invalidRegisterAccess 0x36 s)

/-! ## Loads of one register -/

/-- The opcodes of R82: destination code in bits 5 to 3, source code 6. -/
theorem encode_ldRegAtHl (dst : Reg) : encode (Form.ldRegAtHl dst).instr = [BitVec.ofNat 8 (0x46 + 8 * dst.code.toNat)] := by
  cases dst <;> rfl

/-- The opcodes of R84: destination code in bits 5 to 3. -/
theorem encode_ldRegN8 (dst : Reg) (n8 : Byte) :
    encode (Form.ldRegN8 dst n8).instr = [BitVec.ofNat 8 (0x06 + 8 * dst.code.toNat), n8] := by
  cases dst <;> rfl

/-- Settles O13: the cycle writes the destination alone, with the byte read at the old `HL`. -/
theorem loadRegisterFromHl : Obligations.LoadRegisterFromHl := by
  refine fun dst => ⟨encode_ldRegAtHl dst, fun s => ?_⟩
  rw [exec_instr]
  exact advance_setReg 1#16 8 s dst (s.memRead s.hl)

/-- Settles O15: the cycle writes the destination alone, with the operand byte. -/
theorem loadRegisterImmediate : Obligations.LoadRegisterImmediate := by
  refine fun dst n8 => ⟨encode_ldRegN8 dst n8, fun s => ?_⟩
  rw [exec_instr]
  exact advance_setReg 2#16 8 s dst n8

/-- Settles O17: the two operand bytes are the halves of `n16`, and `setPair` writes them to the pair. -/
theorem loadPairImmediate : Obligations.LoadPairImmediate := by
  intro n16 hi lo hn
  obtain ⟨rfl, rfl⟩ : hi8 n16 = hi ∧ lo8 n16 = lo := by
    rw [show n16 = join16 hi lo from BitVec.eq_of_toNat_eq (hn.trans (join16_toNat hi lo).symm)]
    exact ⟨hi8_join16 hi lo, lo8_join16 hi lo⟩
  exact ⟨rfl, rfl, rfl, rfl, fun s => ⟨exec_eq_execForm (.ldBcN16 n16) s, exec_eq_execForm (.ldDeN16 n16) s,
    exec_eq_execForm (.ldHlN16 n16) s, exec_eq_execForm (.ldSpN16 n16) s⟩⟩

/-! ## Stores of `A` -/

/-- `LD (HL+),A` and `LD (HL-),A` (R87, R88) with a protected `HL` take the fault. -/
theorem ldAtHlStepA_protected (op : Byte) (k : HlStep) {s : State} (hp : isProtected s.hl = true) :
    ldAtHlStepA op k s = .next { s with run := .faulted .readOnlyViolation s.pc op } := by
  rcases ldAtHlStepA_cases op k s with ⟨-, h⟩ | ⟨hw, -⟩
  · exact h
  · nomatch hp.symm.trans hw

/-- `LD (HL+),A` and `LD (HL-),A` (R87, R88) with any other `HL` store at the old `HL` and adjust it. -/
theorem ldAtHlStepA_writable (op : Byte) (k : HlStep) {s : State} (hw : isProtected s.hl = false) :
    ∃ t : State, ldAtHlStepA op k s = .next t ∧ StoredAt s t s.hl s.regs.a ∧ t.hl = stepHl k s.hl ∧
      (∀ q : Reg, q ≠ .h → q ≠ .l → t.getReg q = s.getReg q) ∧
      t.pc = s.pc + 1#16 ∧ t.ticks = s.ticks + 8 ∧ t.flags = s.flags ∧ t.sp = s.sp ∧ t.run = s.run := by
  rcases ldAtHlStepA_cases op k s with ⟨hp, -⟩ | ⟨-, u, hu, h⟩
  · nomatch hw.symm.trans hp
  · refine ⟨_, h, storedAt_of_memWrite hu rfl rfl, hl_setHl u (stepHl k s.hl), fun q hh hl => ?_, ?_⟩
    · calc
        _ = (u.setHl (stepHl k s.hl)).getReg q := getReg_congr rfl q
        _ = u.getReg q := getReg_setHl_other u _ hh hl
        _ = s.getReg q := getReg_congr (memWrite_regs hu) q
    · simp [memWrite_pc hu, memWrite_ticks hu, memWrite_flags hu, memWrite_sp hu, memWrite_run hu]

/-- Settles O18: both instructions are `ldAtHlStepA`, with the two adjustments of `HL`. -/
theorem storeAThenStepHl : Obligations.StoreAThenStepHl := by
  refine ⟨rfl, rfl, fun s lo hi => ?_, fun s hs => ?_⟩ <;> rw [exec_eq_execForm, exec_eq_execForm]
  · have hp : isProtected s.hl = true := (isProtected_iff s.hl).2 ⟨lo, hi⟩
    exact ⟨ldAtHlStepA_protected 0x22 .inc hp, ldAtHlStepA_protected 0x32 .dec hp⟩
  · have hw : isProtected s.hl = false := (isProtected_eq_false_iff s.hl).2 hs
    exact ⟨ldAtHlStepA_writable 0x22 .inc hw, ldAtHlStepA_writable 0x32 .dec hw⟩

/-- Settles O20: the store of `A` fails exactly on the protected range. -/
theorem storeAAbsolute : Obligations.StoreAAbsolute := by
  refine fun n16 => ⟨rfl, fun lo hi s => ?_, fun hn s => ?_⟩ <;> rw [exec_eq_execForm]
  · rcases storeA_cases 0xEA n16 3#16 16 s with ⟨-, h⟩ | ⟨hw, -⟩
    · exact h
    · nomatch ((isProtected_iff n16).2 ⟨lo, hi⟩).symm.trans hw
  · exact storeA_writable 0xEA 3#16 16 s ((isProtected_eq_false_iff n16).2 hn)

/-- Settles O21: `0xFF00 + n8` is never protected (R92), so the store there always succeeds, and the load writes `A` alone. -/
theorem highPageImmediateStoreAndLoad : Obligations.HighPageImmediateStoreAndLoad := by
  intro n8 a ha
  obtain rfl : a = highPage n8 := eq_highPage_of_toNat ha
  refine ⟨rfl, rfl, fun s => ⟨?_, exec_eq_execForm (.ldhAAtN8 n8) s⟩⟩
  rw [exec_eq_execForm]
  exact storeA_writable 0xE0 2#16 12 s (isProtected_highPage n8)

/-! ## The ADD carry -/

/-- Settles O28: the sum is reduced modulo 256, so it falls below either operand exactly when it overflows. -/
theorem addCarryFormsAgree : Obligations.AddCarryFormsAgree := by
  intro x y
  refine ⟨Alu.aluAdd_c_iff x y, ?_⟩
  rw [Alu.aluAdd_toNat]
  have hx := x.isLt
  have hy := y.isLt
  omega

/-! ## Jumps -/

/-- Settles O30: the meaning ends the cycle at the target. -/
theorem jumpAbsolute : Obligations.JumpAbsolute :=
  fun n16 => ⟨rfl, fun s => exec_eq_execForm (.jpN16 n16) s⟩

/-- The displacement byte read as two's complement and added modulo 2^16 (R119). -/
theorem relativeTarget_toNat (pc : Addr) (r8 : Byte) :
    ((relativeTarget pc r8).toNat : Int) =
      ((pc.toNat : Int) + 2 + (if r8.toNat < 128 then (r8.toNat : Int) else (r8.toNat : Int) - 256)) % 65536 := by
  have hr := r8.isLt
  have hext : (r8.signExtend 16).toNat = if r8.toNat < 128 then r8.toNat else r8.toNat + 65280 := by
    revert r8
    decide
  rw [relativeTarget, BitVec.toNat_add, BitVec.toNat_add, hext, BitVec.toNat_ofNat]
  split <;> omega

/-- Settles O32: `F.z` decides the condition; the target is `relativeTarget_toNat`. -/
theorem jumpRelativeIfNotZero : Obligations.JumpRelativeIfNotZero := by
  refine fun r8 => ⟨rfl, fun s => ?_⟩
  have hexec : exec (.jpNzR8 r8) s = jumpRelativeIf .notZero r8 s := exec_eq_execForm (.jpNzR8 r8) s
  rw [hexec]
  rcases jumpRelativeIf_cases .notZero r8 s with ⟨hc, h⟩ | ⟨hc, h⟩
  · have hz : s.flags.z = false := by simpa [condHolds] using hc
    exact ⟨fun _ => ⟨_, h, relativeTarget_toNat s.pc r8⟩, fun hz' => nomatch hz.symm.trans hz'⟩
  · have hz : s.flags.z = true := by simpa [condHolds] using hc
    exact ⟨fun hz' => (nomatch hz.symm.trans hz'), fun _ => h⟩

/-! ## Call and return -/

/-- One of the two bytes below `sp` is protected exactly for `sp` in 0x0101 to 0x8001 (R117). -/
theorem isProtected_below_sp_iff (sp : Addr) :
    (isProtected (sp - 1#16) = true ∨ isProtected (sp - 2#16) = true) ↔ 0x0101 ≤ sp.toNat ∧ sp.toNat ≤ 0x8001 := by
  rw [isProtected_iff, isProtected_iff]
  bv_omega

/-- Settles O31: the push fails exactly for those `sp`, and otherwise leaves the two bytes of the return address. -/
theorem callPushesTheReturnAddress : Obligations.CallPushesTheReturnAddress := by
  refine fun n16 => ⟨rfl, fun s lo hi => ?_, fun s hs => ?_⟩ <;> rw [exec_eq_execForm]
  · rcases call_cases 0xCD n16 s with ⟨-, h⟩ | ⟨h1, h2, -⟩
    · exact h
    · have hp := (isProtected_below_sp_iff s.sp).2 ⟨lo, hi⟩
      simp [h1, h2] at hp
  · rcases call_cases 0xCD n16 s with ⟨hp, -⟩ | ⟨-, -, u, hu, h⟩
    · have hrange := (isProtected_below_sp_iff s.sp).1 hp
      omega
    · obtain ⟨hsp, hregs, hflags, -, hticks, hrun, hread⟩ := push16_ok hu
      have hne : s.sp - 1#16 ≠ s.sp - 2#16 := by bv_omega
      refine ⟨_, h, rfl, hsp, congrArg (· + 24) hticks, ?_, ?_, fun b hb1 hb2 => ?_, hregs, hflags, hrun⟩
      · refine (congrArg BitVec.toNat (hread (s.sp - 1#16))).trans ?_
        rw [if_neg hne, if_pos rfl, lo8_toNat]
      · refine (congrArg BitVec.toNat (hread (s.sp - 2#16))).trans ?_
        rw [if_pos rfl, hi8_toNat]
      · exact (hread b).trans (by rw [if_neg hb2, if_neg hb1])

/-- A pop after a push that succeeded, byte by byte: `PopInvertsPush` for the state the push leaves. -/
theorem pop_of_push16 {s u : State} {v : Addr} (hu : s.push16 v = .ok u) :
    join16 (u.memRead u.sp) (u.memRead (u.sp + 1#16)) = v ∧ u.sp + 2#16 = s.sp := by
  rcases push16_cases s v with ⟨he, -⟩ | ⟨h1, h2, -⟩
  · nomatch he.symm.trans hu
  · obtain ⟨u', hu', -, -, -, -, hpop⟩ := (popInvertsPush s v).2 h1 h2
    obtain rfl : u = u' := Except.ok.inj (hu.symm.trans hu')
    rw [pop16_eq] at hpop
    exact ⟨congrArg Prod.fst hpop, congrArg (fun p => p.2.sp) hpop⟩

/-- Settles O34: the call pushed the return address, and the return, taken with the carry clear, pops it. -/
theorem returnComesBackToTheCall : Obligations.ReturnComesBackToTheCall := by
  intro s t n16 h hr hc
  rw [exec_eq_execForm] at h
  rcases call_cases 0xCD n16 s with ⟨-, hcall⟩ | ⟨-, -, u, hu, hcall⟩ <;> cases hcall.symm.trans h
  · nomatch hr
  · obtain ⟨-, hregs, hflags, -, hticks, -, -⟩ := push16_ok hu
    obtain ⟨hpc, hsp⟩ := pop_of_push16 hu
    rw [exec_retNc]
    refine ⟨_, returnIf_of_condHolds (by simp [hflags, hc]), hpc, hsp, hregs, ?_⟩
    change u.ticks + 24 + 20 = s.ticks + 44
    rw [hticks]

end Sys2Proof.Proofs.Results
